-- ==== Sys2Proof/Word.lean ====
section
/-! DEFINITION. The word types of the UZ9640 model: bytes, 32-bit and 64-bit words. Only the types and the
little-endian assembly of R8 stand here; bit fields stand in Machine/Bits.lean. -/

namespace Sys2Proof

/-- One byte of memory, of a payload or of a frame. -/
abbrev Byte := BitVec 8

/-- A 32-bit function-unit word (R137). -/
abbrev W32 := BitVec 32

/-- A 64-bit register, operand-bus half, data-store word or bundle payload. -/
abbrev W64 := BitVec 64

/-- The number that little-endian bytes spell, the least significant first (R8). -/
def natOfBytes : List Byte → Nat
  | [] => 0
  | b :: rest => b.toNat + 256 * natOfBytes rest

/-- The `n` little-endian bytes of a number (R8). -/
def bytesOfNat : Nat → Nat → List Byte
  | 0, _ => []
  | n + 1, v => BitVec.ofNat 8 v :: bytesOfNat n (v / 256)

end Sys2Proof
end

