-- ==== Sys2Proof/Syntax.lean ====
section
/-! DEFINITION. The commands of the block: one constructor of `Instr` for each row of spec/opcode_table.json,
with the operands the rule of the row names. -/

namespace Sys2Proof

/-- The requester class a packet or a write carries (R217). -/
inductive Origin where
  /-- 0x00 to 0x0F: schedule requesters of region Em. -/
  | region (m : Nat)
  /-- 0x10: host BAR2, and the host's BAR0 accesses to the GPIO view (R265). -/
  | host
  /-- 0x11: management cores. -/
  | mgmt
  /-- 0x12: configuration engine. -/
  | config
  /-- 0x13: JTAG. -/
  | jtag
  /-- 0x14: capture units and the Telltale funnel. -/
  | trace
  deriving DecidableEq, Repr, Inhabited

/-- Where a register write goes: the internal map of R206, or the host's BAR0 of R210. -/
inductive RegTarget where
  | internal (addr : Nat)
  | bar0 (off : Nat)
  deriving DecidableEq, Repr, Inhabited

/-- A command as the host puts it into a mailbox channel (R392): the channel, the fields of the descriptor and the
payload bytes, inline or already fetched from host memory (FLAGS bit 0 says which). -/
structure Desc where
  chan : Nat
  flags : BitVec 16
  tag : BitVec 16
  raddr : BitVec 64
  rmax : Nat
  payload : List Byte
  deriving DecidableEq, Repr, Inhabited

/-- The request operations of R216. -/
inductive ReqOp where
  | rd | wr | wrb
  deriving DecidableEq, Repr, Inhabited

/-- A REQ packet (R216). `len` is the number of bytes accessed; `data` is the second flit of a WR. -/
structure Req where
  op : ReqOp
  urg : Nat
  dstNode : Nat
  dstPort : Nat
  srcNode : Nat
  srcPort : Nat
  tag : Nat
  len : Nat
  origin : Origin
  dstDev : Nat
  srcDev : Nat
  addr : Nat
  data : List Byte
  poison : Bool
  deriving DecidableEq, Repr, Inhabited

/-- An RSP packet (R219): a completion, or a grant when `grant` is set. -/
structure Rsp where
  grant : Bool
  urg : Nat
  dstNode : Nat
  dstPort : Nat
  tag : Nat
  status : Nat
  poison : Bool
  dstDev : Nat
  data : List Byte
  deriving DecidableEq, Repr, Inhabited

/-- A DAT packet (R220): read data, or write data against a grant when `write` is set. -/
structure Dat where
  write : Bool
  urg : Nat
  dstNode : Nat
  dstPort : Nat
  tag : Nat
  srcNode : Nat
  srcPort : Nat
  status : Nat
  poison : Bool
  dstDev : Nat
  srcDev : Nat
  data : List Byte
  /-- The 64 check bits, as 8 bytes, where they came in over a link; empty where they are those that the sending endpoint
  makes of the data. -/
  check : List Byte := []
  deriving DecidableEq, Repr, Inhabited

/-- An SNP packet (R220): an invalidation, or its acknowledgement when `ack` is set. `line` is DRAM address bits [35:6]. -/
structure Snp where
  ack : Bool
  urg : Nat
  dstNode : Nat
  dstPort : Nat
  srcNode : Nat
  line : Nat
  deriving DecidableEq, Repr, Inhabited

/-- A packet of one of the four physical networks (R211). -/
inductive Packet where
  | req (q : Req)
  | rsp (p : Rsp)
  | snp (p : Snp)
  | dat (p : Dat)
  deriving DecidableEq, Repr, Inhabited

/-- The resource whose test a BIST unit run reports (R386). -/
inductive Resource where
  | cluster (tile c : Nat)
  | bank (tile b : Nat)
  | array (tile : Nat)
  deriving DecidableEq, Repr, Inhabited

/-- The four tamper sources of R429; a voltage trip names its rail. -/
inductive TamperSource where
  | pin | volt (rail : Nat) | temp | glitch
  deriving DecidableEq, Repr, Inhabited

/-- What ended the port's configuration space (R335). -/
inductive PortReset where
  | hotReset | linkDisable | linkDown | flr
  deriving DecidableEq, Repr, Inhabited

/-- A write to the port's configuration space (R334, R335). -/
inductive HostCfg where
  | msixEnable (on : Bool)
  | busMaster (on : Bool)
  | cplTimeoutUs (us : Nat)
  deriving DecidableEq, Repr, Inhabited

/-- A discovery message of CASCADE_FORM (R343, R344): the position found and what R344 compares. -/
structure Discovery where
  pos : Nat
  member : Nat
  part : Nat
  stepping : Nat
  speed15 : Bool
  lane : Nat
  hops : Nat
  /-- DEVICE_ID of the device at the position (R416): two devices at one position differ in it. -/
  id : Nat
  xlat : Nat
  deriving DecidableEq, Repr, Inhabited

/-- One command of the block: the rows of spec/opcode_table.json, in the table's order. -/
inductive Instr where
  /- MCI commands (R401): each is the host's mailbox command on one channel. -/
  | identify (d : Desc)
  | status (d : Desc)
  | eventRead (d : Desc)
  | imageBegin (d : Desc)
  | imageData (d : Desc)
  | imageEnd (d : Desc)
  | imageCommit (d : Desc)
  | imageFromFlash (d : Desc)
  | flashWrite (d : Desc)
  | start (d : Desc)
  | stop (d : Desc)
  | run (d : Desc)
  | halt (d : Desc)
  | step (d : Desc)
  | breakSet (d : Desc)
  | regionFence (d : Desc)
  | regionLoad (d : Desc)
  | regionResume (d : Desc)
  | regionPower (d : Desc)
  | captureSet (d : Desc)
  | traceSet (d : Desc)
  | stateRead (d : Desc)
  | stateWrite (d : Desc)
  | laneSet (d : Desc)
  | laneStatus (d : Desc)
  | laneTest (d : Desc)
  | cascadeForm (d : Desc)
  | ketchSet (d : Desc)
  | ketchResync (d : Desc)
  | powerCap (d : Desc)
  | reefPolicy (d : Desc)
  | clockSet (d : Desc)
  | sensorsRead (d : Desc)
  | resourceClaim (d : Desc)
  | resourceRelease (d : Desc)
  | gpioConfig (d : Desc)
  | healthReport (d : Desc)
  | repair (d : Desc)
  | attest (d : Desc)
  | lifecycleSet (d : Desc)
  | fwUpdate (d : Desc)
  | debugUnlock (d : Desc)
  | relayedCommand (opcode : Nat) (payload : List Byte)
  | busyChannelWrite (ch : Nat)
  | haltTimeout (ch : Nat)
  | registerWrite (origin : Origin) (target : RegTarget) (size : Nat) (value : W64)
  /- Packet network (R211 to R232). -/
  | rd (q : Req)
  | wr (q : Req)
  | wrb (q : Req)
  | grant (p : Rsp)
  | wdata (p : Dat)
  | cpl (p : Rsp)
  | rdata (p : Dat)
  | inv (p : Snp)
  | invAck (p : Snp)
  | flitGrant (node net out : Nat)
  | urgencyRise (node net input vc : Nat)
  /- Clusters, memory models and bridges. -/
  | clusterStep (t c : Nat)
  | holdTimeout (t c : Nat)
  | reefingHoldStep
  | mmUnitPresent (t c : Nat)
  | mmrReturn (t c : Nat)
  | bridgeInputWord (m : Nat)
  | brTick (m : Nat)
  | bridgeOutputWord (m : Nat)
  | outputRelease (m : Nat)
  /- Rigging network. -/
  | halfSwap (m : Nat)
  | bundleArrival (t port : Nat)
  | bundleGrant (t out : Nat)
  | latchDelivery (t c latch : Nat)
  | creditReturn (t out vc : Nat)
  | shroudEmission (t out half slot : Nat)
  | riggingDrainComplete (m : Nat)
  | slotTableWrite (origin : Origin) (addr : Nat) (value : W64)
  /- Stream arrays. -/
  | switchStep (t thread : Nat)
  | runStep (t thread : Nat)
  | streamPortFetch (t n : Nat)
  | streamPortStore (t n : Nat)
  | arrayHoldTimeout (t thread : Nat)
  /- Scratchpads. -/
  | bankGrant (t b : Nat)
  | correctedWriteBack (t b : Nat)
  | spPwrWrite (origin : Origin) (t : Nat) (value : W64)
  | bankWake (t b : Nat)
  | bankZeroFill (t b : Nat)
  /- Stacked DRAM. -/
  | dramRequest (g : Nat)
  | dramTransaction (g i : Nat)
  | refreshDue (g : Nat)
  | idleRefresh (g : Nat)
  | forcedRefresh (g : Nat)
  | refreshEnd (g : Nat)
  | patrolScrub (g : Nat)
  | dramZeroFill (g : Nat)
  | stackTemperatureRead (stack : Nat) (celsius : Int)
  /- Fencing, boot and release. -/
  | packetDrainComplete (m : Nat)
  | fenceTimeout (ch : Nat)
  | flashBoot
  | leadTicks
  | startEdge
  | resumeEdge
  /- Glue fabric, DCOs and BAR4. -/
  | frameWrite (origin : Origin) (addr : Nat) (value : W64)
  | gclkSelWrite (origin : Origin) (n : Nat) (value : W64)
  | switchForced (n : Nat)
  | dcoCfgWrite (origin : Origin) (k : Nat) (value : W64)
  | dcoWindow (k : Nat) (errPpm : Int)
  | bar4Request (write : Bool) (off size : Nat) (value : W64)
  | bar4Timeout (n : Nat)
  | flashReadPort (off : Nat)
  /- GPIO. -/
  | outMlo (origin : Origin) (secure : Bool) (bank : Nat) (value : W32)
  | outMhi (origin : Origin) (secure : Bool) (bank : Nat) (value : W32)
  | oeMlo (origin : Origin) (secure : Bool) (bank : Nat) (value : W32)
  | oeMhi (origin : Origin) (secure : Bool) (bank : Nat) (value : W32)
  | pinInput (pin : Nat) (level : Bool)
  | glitchFilterExpiry (pin : Nat)
  | bankSupplyChange (bank vdet : Nat)
  /- Native lanes and Aelbel Link; a link is named by its first lane. -/
  | rawBlockReceive (lane sync : Nat) (payload : W64)
  | detectPoll (lane : Nat) (found : Bool)
  | trainComplete (lane : Nat)
  | lockComplete (lane skew : Nat)
  | stageTimeout (lane : Nat) (passed : Nat)
  | cap (lane : Nat) (block : List Byte)
  | alignBlock (lane : Nat) (block : List Byte)
  | skip (lane : Nat) (inserted deleted : Bool)
  | idle (lane : Nat) (block : List Byte)
  | aelbelFrame (lane : Nat) (frame : List Byte)
  | replayTimeout (lane : Nat)
  | frameTransmit (lane : Nat)
  | crcErrorWindow (lane : Nat)
  | retrain (lane : Nat)
  | lockLoss (lane : Nat) (longerThan1us : Bool)
  | retrainComplete (lane : Nat) (ok : Bool)
  | eidle (lane : Nat)
  | eidleExit (lane : Nat)
  | sleep (lane : Nat)
  | sleepWake (lane : Nat)
  | adaptationFreeze (lane transitions : Nat)
  /- Host port. -/
  | bar2Request (write : Bool) (off len tag : Nat) (data : List Byte)
  | hotReset (cause : PortReset)
  | completionTimeout (tag : Nat)
  /- Cascade: frames are the 80 bits of R340, bit 0 first. -/
  | csyncAlign (frame : BitVec 80)
  | csyncStart (frame : BitVec 80)
  | csyncJoinPrep (frame : BitVec 80)
  | csyncRelease (frame : BitVec 80)
  | csyncStop (frame : BitVec 80)
  | csyncFreeze (frame : BitVec 80)
  | csyncAck (pos seq status : Nat)
  | csyncCommit (seq join : Nat)
  | csyncAction
  | positionLost (pos : Nat)
  | cascadeFaultMessage (record : List Byte)
  | halyardEntry (offset : Nat) (data : List Byte)
  /- Ketch pair. -/
  | compareRecordSend (m : Nat)
  | compareRecord (record : List Byte)
  | faultNotice (record : List Byte)
  | ketchTimeout
  /- Reset, supplies and clocks. -/
  | porstN (cascId : BitVec 4) (masterN : Bool)
  | perstN
  | railGood (rail : Nat)
  | railLoss (rail : Nat)
  | hrefclkLoss
  | resetRelease
  | mastLock
  | mastLockLoss
  | secureSramWipe
  | tamperTrip (source : TamperSource)
  | lockstepMismatch
  | firmwareRestart
  /- Firmware services and policies. -/
  | faultContainment
  | defectSample
  | reefEvaluation
  | emergencyReef
  | powerEstimate (deciWatts : Nat)
  | sensorSample (tile temp vmin : Nat)
  | agingMeasure (tile shiftPpm : Nat)
  | dcoRetrim
  | bistPass (unit : Resource)
  | yardClose (yard : Nat)
  | yardOpen (yard : Nat)
  /- TAP. -/
  | tapReset
  | idcode
  | samplePreload (preload : Option (List (Nat × Bool × Bool)))
  | extest
  | extestPulse
  | extestTrain
  | clamp
  | highz
  | dbgAccess (cmd size addr : Nat) (data : W64)
  | dbgStatus
  | bypass
  /- Debug block, trace and timers. -/
  | haltReq (m : Nat)
  | dbgHaltRun (m : Nat)
  | stepGo (m : Nat)
  | unlockExpiry
  | ts
  | overflow (t source : Nat)
  | tracePacketSink
  | reefingLevelSwitch
  | powerTransitionDone (m : Nat)
  | laneTestEnd (lane : Nat)
  | cascadeFormTimeout
  | csyncAckDeadline
  | flashLoadComplete
  | firmwareStart
  | hrefclkPresent
  | hostLinkUp (speed width : Nat)
  | hostConfigWrite (w : HostCfg)
  | hostCompletion (tag : Nat) (data : List Byte)
  | pcsBlockLock (lane : Nat) (locked : Bool)
  | ketchRoleMessage (role : Nat)
  | joinCountReport (pos count : Nat)
  | halyardStatusReport (pos status : Nat)
  | discoveryMessage (m : Discovery)
  deriving DecidableEq, Repr

end Sys2Proof
end

