-- ==== Sys2Proof/Machine/Signals.lean ====
section
/-! DEFINITION. What the configuration frames of the glue fabric say (R239 to R248): the signals of a region, its cells, block
RAMs and boundary cells. The spec gives the frames' places and no layout of their 1,024 bits: Config reads them (log 7). -/

namespace Sys2Proof.Machine

/-- Signals that the hard resources of a glue region give its logic (R238, R251, R256 to R261). Bridges are 0 and 1 for
2n and 2n + 1; lanes 0 to 17 of the region, two blocks or transfers each; serial blocks 0 UART1, 1 SPI1, 2 I2C1. -/
inductive GlueIn where
  | pin (p : Nat)
  | brTick (b : Nat)
  | brOut (b i : Nat)
  | dcoStable
  | busReq | busWrite | busWide
  | busAddr (i : Nat)
  | busData (i : Nat)
  | laneValid (lane slot : Nat)
  /-- The sync header of a raw block, or the control bits of a PCS transfer. -/
  | laneHead (lane slot i : Nat)
  | laneData (lane slot i : Nat)
  | serValid (b : Nat)
  | serData (b i : Nat)
  | serReady (b : Nat)
  | flashData (i : Nat)
  deriving DecidableEq, Repr

/-- Signals that the logic of a glue region gives its hard resources, in the same terms. -/
inductive GlueOut where
  | pinOut (p : Nat)
  | pinOe (p : Nat)
  | brIn (b i : Nat)
  | busReady
  | busData (i : Nat)
  | laneValid (lane slot : Nat)
  | laneHead (lane slot i : Nat)
  | laneData (lane slot i : Nat)
  | serValid (b : Nat)
  | serData (b i : Nat)
  | serReady (b : Nat)
  deriving DecidableEq, Repr

/-- What a routing multiplexer selects in its region (R239 to R242, R245). Bit 72 of a block RAM port is its error flag. -/
inductive Wire where
  | const (b : Bool)
  | lut (bay cell : Nat)
  | ff (bay cell : Nat)
  | line (frame k : Nat)
  | ram (block : Nat) (portB : Bool) (i : Nat)
  | boundary (i : Nat)
  | sig (g : GlueIn)
  deriving DecidableEq, Repr, Inhabited

/-- What a flip-flop takes as its D input (R239, R240). -/
inductive FfIn where
  | lut | direct | f5 | f6 | f7
  deriving DecidableEq, Repr, Inhabited

/-- A cell: truth table, inputs, flip-flop. Without a clock enable the flip-flop is always enabled. -/
structure Cell where
  table : BitVec 16 := 0
  a : Wire := .const false
  b : Wire := .const false
  c : Wire := .const false
  d : Wire := .const false
  ffIn : FfIn := .lut
  ce : Option Wire := none
  init : Bool := false
  deriving DecidableEq, Repr, Inhabited

/-- A bay: its cells, its clock tree, and its set/reset tree, 0 for none or 1 to 3 (R239, R248). -/
structure Bay where
  cells : List Cell := []
  tree : Nat := 0
  gsr : Nat := 0
  deriving DecidableEq, Repr, Inhabited

/-- A port of a block RAM: its width of 9, 18, 36 or 72 bits, its tree and its signals (R242). -/
structure RamPort where
  width : Nat := 9
  tree : Nat := 0
  en : Wire := .const false
  we : Wire := .const false
  addr : List Wire := []
  din : List Wire := []
  deriving DecidableEq, Repr, Inhabited

/-- A block RAM; `ecc` applies SECDED in the 512 × 72 shape (R242). -/
structure RamCfg where
  a : RamPort := {}
  b : RamPort := {}
  ecc : Bool := false
  deriving DecidableEq, Repr, Inhabited

/-- A boundary cell: the region and wire it receives, and its constant (R245). -/
structure Boundary where
  src : Nat := 0
  wire : Wire := .const false
  const : Bool := false
  deriving DecidableEq, Repr, Inhabited

/- Cells and multiplexer stages (R239, R240). -/

/-- The LUT output: inputs A to D index the table as A + 2 B + 4 C + 8 D. -/
def Cell.lutOut (c : Cell) (v : Wire → Bool) : Bool :=
  c.table.getLsbD ((v c.a).toNat + 2 * (v c.b).toNat + 4 * (v c.c).toNat + 8 * (v c.d).toNat)

def Bay.cell (b : Bay) (j : Nat) : Cell := b.cells.getD j {}

def Bay.lut (b : Bay) (v : Wire → Bool) (j : Nat) : Bool := (b.cell j).lutOut v

/-- Stage F5 of pair `j`. A select of 1 takes the second input, here and in F6 and F7 (log 100). -/
def Bay.f5 (b : Bay) (v : Wire → Bool) (j : Nat) : Bool :=
  if v (b.cell (2 * j + 1)).d then b.lut v (2 * j + 1) else b.lut v (2 * j)

/-- Stage F6 of quad `j`. -/
def Bay.f6 (b : Bay) (v : Wire → Bool) (j : Nat) : Bool :=
  if v (b.cell (4 * j + 3)).d then b.f5 v (2 * j + 1) else b.f5 v (2 * j)

/-- Stage F7. -/
def Bay.f7 (b : Bay) (v : Wire → Bool) : Bool := if v (b.cell 7).d then b.f6 v 1 else b.f6 v 0

/-- The D input of a cell's flip-flop: its LUT, its input D, or a stage whose select the cell supplies. -/
def Bay.ffD (b : Bay) (v : Wire → Bool) (j : Nat) : Bool :=
  match (b.cell j).ffIn with
  | .lut => b.lut v j
  | .direct => v (b.cell j).d
  | .f5 => if j % 2 = 1 then b.f5 v (j / 2) else b.lut v j
  | .f6 => if j % 4 = 3 then b.f6 v (j / 4) else b.lut v j
  | .f7 => if j = 7 then b.f7 v else b.lut v j

/-- The number that a list of wires spells, the least significant first. -/
def wiresNum (v : Wire → Bool) (l : List Wire) : Nat := l.foldr (fun w n => (v w).toNat + 2 * n) 0

end Sys2Proof.Machine
end

