-- ==== Sys2Proof/Machine/Store.lean ====
section
/-! DEFINITION. Sparse maps in canonical form: the one way this model holds memories and register blocks. A key that is
not listed reads as the default, and a write of the default removes the entry, so that equal maps are equal data. -/

namespace Sys2Proof.Machine

/-- A sparse map from numbers, kept with strictly rising keys and without default entries. -/
abbrev Map (α : Type) := List (Nat × α)

/-- The value at a key: the listed one, or the default of that key. -/
def mapGet {α : Type} (d : Nat → α) : Map α → Nat → α
  | [], k => d k
  | (a, v) :: rest, k => if a = k then v else mapGet d rest k

/-- The map without any entry of a key. -/
def mapDrop {α : Type} (k : Nat) (m : Map α) : Map α := m.filter fun e => e.1 != k

/-- The map without any entry whose key satisfies a test: those keys read as the default again. -/
def mapDropIf {α : Type} (p : Nat → Bool) (m : Map α) : Map α := m.filter fun e => !p e.1

/-- An entry put in its place by key. -/
def mapInsert {α : Type} (k : Nat) (v : α) : Map α → Map α
  | [] => [(k, v)]
  | (a, w) :: rest => if k < a then (k, v) :: (a, w) :: rest else (a, w) :: mapInsert k v rest

/-- A write: the entry replaced, or removed when the value is the default of the key. -/
def mapSet {α : Type} [DecidableEq α] (d : Nat → α) (m : Map α) (k : Nat) (v : α) : Map α :=
  if v = d k then mapDrop k m else mapInsert k v (mapDrop k m)

/-- The canonical form: keys strictly rising, no entry that equals its default. -/
def mapWf {α : Type} [DecidableEq α] (d : Nat → α) (m : Map α) : Bool :=
  decide (m.Pairwise fun a b => a.1 < b.1) && m.all fun e => decide (e.2 ≠ d e.1)

/-- `n` bytes read from an address upward. -/
def bytesAt (d : Nat → Byte) (m : Map Byte) (a : Nat) : Nat → List Byte
  | 0 => []
  | n + 1 => mapGet d m a :: bytesAt d m (a + 1) n

/-- Bytes written from an address upward. -/
def putBytes (d : Nat → Byte) (m : Map Byte) (a : Nat) : List Byte → Map Byte
  | [] => m
  | b :: rest => putBytes d (mapSet d m a b) (a + 1) rest

/-- A list with element `i` replaced by `f` of it; unchanged when there is no element `i`. -/
def modAt {α : Type} (f : α → α) : Nat → List α → List α
  | _, [] => []
  | 0, a :: rest => f a :: rest
  | i + 1, a :: rest => a :: modAt f i rest

/-- The first element that satisfies a test, and the list without it. -/
def takeFirst {α : Type} (p : α → Bool) : List α → Option (α × List α)
  | [] => none
  | a :: rest => if p a then some (a, rest) else (takeFirst p rest).map fun r => (r.1, a :: r.2)

end Sys2Proof.Machine
end

