-- ==== Sys2Proof/Machine/RegMap.lean ====
section
/-! DEFINITION. The register map: where each register of the spec lies (R208 and the chapters), how wide it is, its reset
value, which bits a write sets, clears or ignores (R9), which reset it takes (R11) and who may write it. -/

namespace Sys2Proof.Machine

/- Geometry (R12, R18, R22, R208, R211). -/

/-- Base of the register block of tile `t` (R208). -/
def tileBase (t : Nat) : Nat := 0x15_0000_0000 + t * 0x10_0000

/-- Home tile of region `m`: its tile of lowest index (R22). -/
def homeTile (m : Nat) : Nat := 8 * (2 * (m / 4)) + 2 * (m % 4)

/-- Region of tile `t`: the region whose 2 by 2 block holds it. -/
def regionOfTile (t : Nat) : Nat := t / 16 * 4 + t % 8 / 2

/-- The four tiles of region `m`, in order of tile index. -/
def tilesOf (m : Nat) : List Nat := [homeTile m, homeTile m + 1, homeTile m + 8, homeTile m + 9]

/-- A register of tile `t`. -/
def tileReg (t off : Nat) : Nat := tileBase t + off

/-- A register of the home tile of region `m`. -/
def homeReg (m off : Nat) : Nat := tileBase (homeTile m) + off

/-- A register of the configuration block of physical cluster `c` (0 to 131) of tile `t` (R61). -/
def cluReg (t c off : Nat) : Nat := tileBase t + 0x8000 + c * 0x40 + off

def aMmw (t c n : Nat) : Nat := cluReg t c (8 * n)
def aCluCnt (t c : Nat) : Nat := cluReg t c 0x20
def aCluErr (t c : Nat) : Nat := cluReg t c 0x28
def aCluStatus (t c : Nat) : Nat := cluReg t c 0x30
def aRxSeq (t c : Nat) : Nat := cluReg t c 0x38
def aCluRemap (t s : Nat) : Nat := tileReg t (0xA100 + 8 * s)
def aHoldLimit (t : Nat) : Nat := tileReg t 0xA120
def aRigCnt (t : Nat) : Nat := tileReg t 0xB000
def aRigErr (t : Nat) : Nat := tileReg t 0xB008
def aRigXlat (t : Nat) : Nat := tileReg t 0xB010
def aRgnSched (m : Nat) : Nat := homeReg m 0xC000
def aRgnRt (m : Nat) : Nat := homeReg m 0xC008
def aRgnEcycle (m : Nat) : Nat := homeReg m 0xC010
def aRgnSlip (m : Nat) : Nat := homeReg m 0xC018
def aRgnSlipCfg (m : Nat) : Nat := homeReg m 0xC020
def aRgnCnt (m : Nat) : Nat := homeReg m 0xC028
def aRgnRig (m : Nat) : Nat := homeReg m 0xC030
def aRgnRefwin (m : Nat) : Nat := homeReg m 0xC038
def aArrCfg (t : Nat) : Nat := tileReg t 0xD000
def aArrStatus (t : Nat) : Nat := tileReg t 0xD008
def aArrFrame (t : Nat) : Nat := tileReg t 0xD010
def aArrCnt (t : Nat) : Nat := tileReg t 0xD018
def aArrErr (t : Nat) : Nat := tileReg t 0xD020
def aArrCache (t : Nat) : Nat := tileReg t 0xD028
def aArrBrk (t : Nat) : Nat := tileReg t 0xD030
def aPortCfg (t n : Nat) : Nat := tileReg t (0xD040 + 8 * n)
def aSpCfg (t : Nat) : Nat := tileReg t 0xE000
def aSpPwr (t : Nat) : Nat := tileReg t 0xE008
def aSpCnt (t : Nat) : Nat := tileReg t 0xE010
def aSpErr (t : Nat) : Nat := tileReg t 0xE018
def aDramRef (t : Nat) : Nat := tileReg t 0xE100
def aDramEcc (t : Nat) : Nat := tileReg t 0xE108
def aDramErraddr (t : Nat) : Nat := tileReg t 0xE110
def aDramTxn (t : Nat) : Nat := tileReg t 0xE118
def aCapCfg (t : Nat) : Nat := tileReg t 0xF100
def aCapStat (t : Nat) : Nat := tileReg t 0xF108
def aCapCnt (t : Nat) : Nat := tileReg t 0xF110
def aTileSens (t : Nat) : Nat := tileReg t 0xF200
def aTileAge (t : Nat) : Nat := tileReg t 0xF208
def aTilePwr (t : Nat) : Nat := tileReg t 0xF210
def aTtCfg (t : Nat) : Nat := tileReg t 0xF300
def aTtStat (t : Nat) : Nat := tileReg t 0xF308
/-- Low half (`hi` 0) or high half (`hi` 1) of the slot-table entry of output `o`, half `h`, slot `sl` (R92). -/
def aSlot (t o h sl hi : Nat) : Nat := tileReg t (0x4_0000 + 0x8000 * o + 0x4000 * h + 16 * sl + 8 * hi)
def aGclkSel (n : Nat) : Nat := 0x15_1001_0000 + 8 * n
def aDcoCfg (k : Nat) : Nat := 0x15_1001_0100 + 0x10 * k
def aDcoStat (k : Nat) : Nat := 0x15_1001_0108 + 0x10 * k
/-- A register of GPIO bank `b`, normal view (R262, R263). -/
def aGpio (b off : Nat) : Nat := 0x15_1002_0000 + 0x200 * b + off
def aOut (b : Nat) : Nat := aGpio b 0x10
def aOe (b : Nat) : Nat := aGpio b 0x14
def aIn (b : Nat) : Nat := aGpio b 0x18
def aIgn (b : Nat) : Nat := aGpio b 0x1C
def aBankStat (b : Nat) : Nat := aGpio b 0x20
/-- PIN_CFG of pin `p` of 256 (R264). -/
def aPinCfg (p : Nat) : Nat := aGpio (p / 32) (0x100 + 8 * (p % 32))
/-- IGN of the secure alias of bank `b` (R262, R266). -/
def aSecIgn (b : Nat) : Nat := 0x15_1002_8000 + 0x200 * b + 0x1C
def aCfgStatus : Nat := 0x15_1003_0000
def aCfgCommit : Nat := 0x15_1003_0008
def aCfgRgn (m : Nat) : Nat := 0x15_1003_0100 + 8 * m
def aNocFence (m : Nat) : Nat := 0x15_1004_0000 + 8 * m
def aNocErr : Nat := 0x15_1004_0100
def aNocRtr (t : Nat) : Nat := 0x15_1004_1000 + 8 * t
def aLnStat (n : Nat) : Nat := 0x15_1005_0000 + 0x40 * n
def aLnPartner (n : Nat) : Nat := 0x15_1005_0008 + 0x40 * n
def aLnCnt (n : Nat) : Nat := 0x15_1005_0010 + 0x40 * n
def aLnMon (n : Nat) : Nat := 0x15_1005_0018 + 0x40 * n
def aHpStat : Nat := 0x15_1006_0000
def aCascStat : Nat := 0x15_1007_0000
def aCascRoute (p : Nat) : Nat := 0x15_1007_0100 + 8 * p
def aKetchCfg : Nat := 0x15_1007_0200
def aKetchStat : Nat := 0x15_1007_0208
def aMastStat : Nat := 0x15_1008_0000
def aYardCmd : Nat := 0x15_1008_0010
def aYardResult : Nat := 0x15_1008_0018
def aReefCfg : Nat := 0x15_1008_0020
def aReefStat : Nat := 0x15_1008_0028
def aPwrEst : Nat := 0x15_1008_0030
def aResetCause : Nat := 0x15_1008_0040
def aTamperStat : Nat := 0x15_1009_0000
def aDbgHalt (m : Nat) : Nat := 0x15_100A_0000 + 8 * m
def aDbgAt (m : Nat) : Nat := 0x15_100A_0080 + 8 * m
def aDbgCmpCfg (n : Nat) : Nat := 0x15_100A_0100 + 0x20 * n
def aDbgCmpMask (n : Nat) : Nat := 0x15_100A_0108 + 0x20 * n
def aDbgCmpVal (n : Nat) : Nat := 0x15_100A_0110 + 0x20 * n
def aDbgCmpEcy (n : Nat) : Nat := 0x15_100A_0118 + 0x20 * n
def aDbgEcy (n : Nat) : Nat := 0x15_100A_0300 + 8 * n
def aFunSink : Nat := 0x15_100B_0000
def aFunBase : Nat := 0x15_100B_0008
def aFunSize : Nat := 0x15_100B_0010
def aFunWptr : Nat := 0x15_100B_0018
def aFunRptr : Nat := 0x15_100B_0020
def aFunLo (r : Nat) : Nat := 0x15_100B_0100 + 16 * r
def aFunHi (r : Nat) : Nat := 0x15_100B_0108 + 16 * r
/-- Registers that lie in BAR0 only, off the internal map (R210): kept at keys above the 48-bit space. -/
def aBar0 (off : Nat) : Nat := 0x1_0000_0000_0000 + off
def aDbBusy : Nat := aBar0 0x1_0004
def aDbDone : Nat := aBar0 0x1_0008
def aDbIgn : Nat := aBar0 0x1_0010

/-- The reset a register takes its reset value at (R11). -/
inductive Domain where
  | device
  | region (m : Nat)
  /-- Only when VDD_AON rises (R389, R430). -/
  | aon
  deriving DecidableEq, Repr

/-- Who may write a register, and under which condition. -/
inductive Writers where
  /-- Every requester R209 lets reach the block. -/
  | reach
  /-- While the region is fenced or halted at an ecycle boundary (R66, R148). -/
  | fencedOrHalted
  /-- Only the management complex; another write receives DENIED. -/
  | mgmt
  /-- Management complex, and JTAG under a bit of the unlock SCOPE (R437, R457). -/
  | mgmtOrJtag (scope : Nat)
  /-- Nobody: every write receives DENIED (R307). -/
  | nobody
  deriving DecidableEq, Repr

/-- One register of the map. -/
structure RegRow where
  /-- Width in bytes. -/
  size : Nat
  reset : W64
  /-- Bits a write sets (RW). -/
  rw : W64
  /-- Bits a written 1 clears (W1C). -/
  w1c : W64
  /-- Bits a written 1 sets (RW1S). -/
  w1s : W64
  dom : Domain
  writers : Writers
  deriving DecidableEq, Repr

/-- What a write leaves in a register (R9, R10). -/
def RegRow.written (r : RegRow) (old new : W64) : W64 :=
  (((old &&& ~~~r.rw) ||| (new &&& r.rw)) &&& ~~~(new &&& r.w1c)) ||| (new &&& r.w1s)

/-- The bits from `lo` to `hi` inclusive, as the register tables write them. -/
def bits (hi lo : Nat) : W64 := ((BitVec.allOnes (hi + 1 - lo)).setWidth 64) <<< lo

def roReg (dom : Domain) (w : Writers) (reset : W64 := 0) : RegRow := ⟨8, reset, 0, 0, 0, dom, w⟩
def rwReg (dom : Domain) (w : Writers) (rw : W64) (reset : W64 := 0) : RegRow := ⟨8, reset, rw, 0, 0, dom, w⟩

/-- Row of offset `o` in a cluster's configuration block (R54, R63, R98). -/
def clusterRow (m o : Nat) : Option RegRow :=
  if o < 0x20 then some (rwReg (.region m) .reach (bits 7 0 ||| bits 57 16))
  else if o < 0x38 then some (roReg (.region m) .reach)
  else some (rwReg (.region m) .reach (bits 9 0 ||| bits 41 32))

/-- Row of a region register at offset 0xC000 + `o` of a home tile (R66, R69, R81, R86, R107, R120). -/
def regionRow (m o : Nat) : Option RegRow :=
  match o with
  | 0x00 => some (rwReg (.region m) .fencedOrHalted (bits 18 0 ||| bits 31 20))
  | 0x08 => some (rwReg (.region m) .fencedOrHalted (bits 23 0))
  | 0x10 => some (roReg (.region m) .reach)
  | 0x18 => some ⟨8, 0, bits 47 24, bits 48 48, 0, .region m, .reach⟩
  | 0x20 => some (rwReg (.region m) .reach (bits 23 0) 0xFF_FFFF)
  | 0x28 => some (roReg (.region m) .reach)
  | 0x30 => some ⟨8, 0, 0, 0, bits 1 1, .device, .reach⟩
  | 0x38 => some (rwReg (.region m) .fencedOrHalted (bits 20 0))
  | _ => none

/-- Row of a stream-array register at offset 0xD000 + `o` (R158, R165, R444). -/
def arrayRow (m o : Nat) : Option RegRow :=
  match o with
  | 0x00 => some (rwReg (.region m) .fencedOrHalted (bits 9 0))
  | 0x08 | 0x10 | 0x18 | 0x20 | 0x28 => some (roReg (.region m) .reach)
  | 0x30 => some ⟨8, 0, bits 24 0, bits 25 25, 0, .region m, .reach⟩
  | _ => if 0x40 ≤ o ∧ o < 0x80 then some (rwReg (.region m) .fencedOrHalted (bits 6 0)) else none

/-- Row of a memory or monitor register at tile offset `o` (R177, R179, R183, R200, R203, R390, R456, R460). -/
def tileMiscRow (m o : Nat) : Option RegRow :=
  match o with
  | 0xE000 => some (rwReg (.region m) .fencedOrHalted (bits 8 0) 0x80)
  | 0xE008 => some (rwReg .device .mgmt (bits 31 0))
  | 0xE010 => some (rwReg (.region m) .reach (bits 63 0))
  | 0xE018 => some (roReg (.region m) .reach)
  | 0xE100 => some (rwReg .device .reach (bits 47 0))
  | 0xE108 | 0xE110 | 0xE118 => some (roReg .device .reach)
  | 0xF100 => some (rwReg .device .reach (bits 3 0 ||| bits 63 12))
  | 0xF108 | 0xF110 => some (roReg .device .reach)
  | 0xF200 => some (rwReg .device .reach (bits 23 12))
  | 0xF208 => some (roReg .device .reach)
  | 0xF210 => some (roReg .device .reach 4)
  | 0xF300 => some (rwReg .device .reach (bits 17 0))
  | 0xF308 => some (roReg .device .reach)
  | _ => none

/-- Row of one half of a slot-table entry (R93): bits [63:0] are CONST; of bits [127:64], those without a dash. -/
def slotRow (hi : Bool) : RegRow :=
  rwReg .device .reach (if hi then bits 41 0 ||| bits 50 47 else bits 63 0)

/-- Row of tile offset `o` in tile `t` (R208). -/
def tileRow (t o : Nat) : Option RegRow :=
  let m := regionOfTile t
  if o % 8 ≠ 0 then none
  else if 0x8000 ≤ o ∧ o < 0xA100 then clusterRow m ((o - 0x8000) % 0x40)
  else if 0xA100 ≤ o ∧ o < 0xA120 then some (rwReg .device .mgmt (bits 7 0))
  else if o = 0xA120 then some (rwReg .device .reach (bits 4 0) 24)
  else if o = 0xB000 then some (rwReg .device .reach (bits 63 0))
  else if o = 0xB008 ∨ o = 0xB010 then some (roReg .device .reach)
  else if 0xC000 ≤ o ∧ o < 0xC040 then
    if t = homeTile m then regionRow m (o - 0xC000) else none
  else if 0xD000 ≤ o ∧ o < 0xD080 then arrayRow m (o - 0xD000)
  else if 0xE000 ≤ o ∧ o < 0x1_0000 then tileMiscRow m o
  else if 0x4_0000 ≤ o ∧ o < 0xA_8000 then some (slotRow (o / 8 % 2 = 1))
  else none

/-- Row of offset `o` in the glue control block (R249, R253). -/
def glueRow (o : Nat) : Option RegRow :=
  if o = 0 then some (roReg .device .mgmt)
  else if o < 0x40 ∧ o % 8 = 0 then some ⟨8, 0, bits 3 0, bits 4 4, 0, .device, .mgmt⟩
  else if 0x100 ≤ o ∧ o < 0x180 ∧ o % 16 = 0 then some (rwReg .device .mgmt (bits 33 0) (BitVec.ofNat 64 (200 * 2 ^ 23)))
  else if 0x100 ≤ o ∧ o < 0x180 ∧ o % 16 = 8 then some ⟨8, 0, 0, bits 1 1, 0, .device, .mgmt⟩
  else none

/-- Row of offset `o` in one GPIO bank (R263, R264). The four write-only registers keep nothing themselves. -/
def gpioRow (o : Nat) : Option RegRow :=
  if o < 0x10 ∧ o % 4 = 0 then some ⟨4, 0, 0, 0, 0, .device, .reach⟩
  else if (o = 0x10 ∨ o = 0x14 ∨ o = 0x18 ∨ o = 0x20) then some ⟨4, 0, 0, 0, 0, .device, .reach⟩
  else if o = 0x1C then some ⟨4, 0, bits 15 0, 0, 0, .device, .reach⟩
  else if 0x100 ≤ o ∧ o < 0x200 ∧ o % 8 = 0 then
    some ⟨8, 0x2000, bits 2 0 ||| bits 6 4 ||| bits 14 8 ||| bits 29 16 ||| bits 36 32, 0, 0, .device, .mgmt⟩
  else none

/-- Row of offset `o` in the configuration engine's status block (R307). -/
def cfgRow (o : Nat) : Option RegRow :=
  if o = 0 ∨ o = 8 ∨ (0x100 ≤ o ∧ o < 0x1C0 ∧ o % 8 = 0) then some (roReg .device .nobody) else none

/-- Row of offset `o` in the packet-network control block (R237). -/
def nocRow (o : Nat) : Option RegRow :=
  if o < 0x80 ∧ o % 8 = 0 then some (rwReg .device .mgmt (bits 0 0))
  else if o = 0x100 then some (roReg .device .mgmt)
  else if 0x1000 ≤ o ∧ o < 0x1200 ∧ o % 8 = 0 then some (rwReg .device .mgmt (bits 47 0))
  else none

/-- Row of offset `o` in one lane's block (R331). -/
def laneRow (o : Nat) : Option RegRow :=
  match o with
  | 0x00 | 0x08 | 0x18 => some (roReg .device .mgmt)
  | 0x10 => some (rwReg .device .mgmt (bits 63 0))
  | _ => none

/-- Row of offset `o` in the cascade block (R361). -/
def cascRow (o : Nat) : Option RegRow :=
  if o = 0 ∨ o = 0x208 then some (roReg .device .mgmt)
  else if 0x100 ≤ o ∧ o < 0x180 ∧ o % 8 = 0 then some (rwReg .device .mgmt (bits 12 0))
  else if o = 0x200 then some (rwReg .device .mgmt (bits 4 0 ||| bits 31 8) 0xA06)
  else none

/-- Row of offset `o` in the clock and power block (R389). -/
def powerRow (o : Nat) : Option RegRow :=
  match o with
  | 0x00 => some (rwReg .device .mgmt (bits 3 2) 2)
  | 0x10 | 0x18 => some (roReg .device .mgmt)
  | 0x20 => some (rwReg .device .mgmt (bits 25 0) (BitVec.ofNat 64 (95 + 5 * 2 ^ 8 + 4 * 2 ^ 13 + 700 * 2 ^ 16)))
  | 0x28 => some (rwReg .device .mgmt (bits 43 12) (BitVec.ofNat 64 (4 * 2 ^ 3 + 4 * 2 ^ 6)))
  | 0x30 => some (rwReg .device .mgmt (bits 31 16) (BitVec.ofNat 64 (750 * 2 ^ 32)))
  | 0x40 => some ⟨8, 0, 0, bits 5 0, 0, .aon, .mgmt⟩
  | _ => none

/-- Row of offset `o` in the debug block (R437, R442, R443). -/
def debugRow (o : Nat) : Option RegRow :=
  let w := Writers.mgmtOrJtag 1
  if o % 8 ≠ 0 then none
  else if o < 0x80 then some ⟨8, 0, bits 3 3 ||| bits 31 12, 0, bits 0 0, .device, w⟩
  else if o < 0x100 then some (rwReg .device w (bits 48 0))
  else if o < 0x300 then
    match (o - 0x100) % 0x20 with
    | 0 => some ⟨8, 0, bits 36 0, bits 37 37, 0, .device, w⟩
    | 8 | 16 => some (rwReg .device w (bits 63 0))
    | _ => some (roReg .device w)
  else if o < 0x340 then some ⟨8, 0, bits 58 0, bits 59 59, 0, .device, w⟩
  else none

/-- Row of offset `o` in the funnel block (R457). -/
def funnelRow (o : Nat) : Option RegRow :=
  let w := Writers.mgmtOrJtag 2
  match o with
  | 0x00 => some (rwReg .device w (bits 16 0))
  | 0x08 | 0x10 => some (rwReg .device w (bits 63 0))
  | 0x18 => some (roReg .device w)
  | 0x20 => some (rwReg .device w (bits 31 0))
  | _ => if 0x100 ≤ o ∧ o < 0x180 ∧ o % 8 = 0 then some (rwReg .device w (bits 47 0)) else none

/-- Row of an address of the I/O die register range (R206). -/
def ioRow (a : Nat) : Option RegRow :=
  let o := a - 0x15_1000_0000
  let p := o % 0x1_0000
  match o / 0x1_0000 with
  | 1 => glueRow p
  | 2 =>
    if p < 0x1000 then gpioRow (p % 0x200)
    else if 0x8000 ≤ p ∧ p < 0x9000 then
      if p % 0x200 = 0x1C then gpioRow 0x1C else gpioRow (p % 0x200)
    else none
  | 3 => cfgRow p
  | 4 => nocRow p
  | 5 => if p < 144 * 0x40 then laneRow (p % 0x40) else none
  | 6 => if p = 0 then some (rwReg .device .mgmt (bits 55 8)) else none
  | 7 => cascRow p
  | 8 => powerRow p
  | 9 => if p = 0 then some ⟨8, 0, 0, bits 3 0, 0, .aon, .mgmt⟩ else none
  | 10 => debugRow p
  | 11 => funnelRow p
  | _ => none

/-- Row of a BAR0-only register at BAR0 offset `o` (R395). DB_RING and DB_EVT keep nothing themselves. -/
def bar0Row (o : Nat) : Option RegRow :=
  match o with
  | 0x1_0000 | 0x1_0004 | 0x1_000C => some ⟨4, 0, 0, 0, 0, .device, .reach⟩
  | 0x1_0008 => some ⟨4, 0, 0, bits 15 0, 0, .device, .reach⟩
  | 0x1_0010 => some ⟨4, 0, bits 15 0, 0, 0, .device, .reach⟩
  | _ => none

/-- The register at an address of the internal map, or at a BAR0 key. -/
def regRow (a : Nat) : Option RegRow :=
  if 0x15_0000_0000 ≤ a ∧ a < 0x15_0400_0000 then
    tileRow ((a - 0x15_0000_0000) / 0x10_0000) ((a - 0x15_0000_0000) % 0x10_0000)
  else if 0x15_1000_0000 ≤ a ∧ a < 0x15_2000_0000 then ioRow a
  else if 0x1_0000_0000_0000 ≤ a then bar0Row (a - 0x1_0000_0000_0000)
  else none

/-- Reset value of the register at an address; 0 where there is none. -/
def regReset (a : Nat) : W64 := match regRow a with
  | some r => r.reset
  | none => 0

/-- Reset domain of the register at an address. -/
def regDomain (a : Nat) : Domain := match regRow a with
  | some r => r.dom
  | none => .device

end Sys2Proof.Machine
end

