-- ==== Sys2Proof/Machine/State.lean ====
section
/-! DEFINITION. The state of the part: every register, memory, queue, counter, mode and pin the spec names, as plain data,
with the queue of waiting commands; `State.reset`; the outcomes. Registers of the register map live in `regs`, memories
in `mem`; what is kept per cluster, region, switch and so on lives in sparse maps with an initial value as default. -/

namespace Sys2Proof.Machine

/-- Why a command stops the block. -/
inductive Fault where
  /-- Raised by every command but a reset cause, after CLOCK_SET with FORCE has set dividers outside the ratio limits:
  no rule of the manual applies until a device reset (R364). Safe: the model stops where the spec says nothing. -/
  | clocksUndefined
  deriving DecidableEq, Repr

/-- Commands without a meaning. -/
inductive Refusal where
  /-- Raised by `exec` for a command not modelled yet. Safe. -/
  | notModelled (mnemonic : String)
  deriving DecidableEq, Repr

/-- The part and its straps: what does not change between resets (R2, R6, R337, R416). -/
structure Part where
  speed15 : Bool := true
  gradeX : Bool := false
  dram64 : Bool := true
  /-- 0 A0, 1 B0 (R417). -/
  stepping : Nat := 1
  /-- Identity public key (R416), and the vendor's signature of its certificate (R421). -/
  idKey : List Byte := []
  certSig : List Byte := []
  romVersion : Nat := 0
  cascId : Nat := 0
  masterLow : Bool := true
  deriving DecidableEq, Repr

/-- A word in a latch or on a bridge link, with its generation (R49). -/
structure LWord where
  gen : Bool
  data : W64
  deriving DecidableEq, Repr

/-- How far a memory-model access has come (R53, R55, R173, R489). -/
inductive MmPhase where
  /-- Not performed under R55; completes when it is next in order. -/
  | refused
  /-- In the unit, not yet presented or sent. -/
  | waiting
  /-- At its bank, or sent on the packet network. -/
  | sent
  /-- The read value has returned, or the write is performed. -/
  | done
  /-- The read stands in the MMR latch. -/
  | inMmr
  /-- The read is not delivered (R489). -/
  | failed
  deriving DecidableEq, Repr

/-- A memory-model access of a cluster (R52). -/
structure MmAcc where
  write : Bool
  size : Nat
  addr : Nat
  /-- Write data, or the value read. -/
  data : W64
  gen : Bool
  since : Nat
  phase : MmPhase
  deriving DecidableEq, Repr

/-- What a physical cluster holds beside its memories and registers (R37, R40, R49, R53). -/
structure Clu where
  period : Nat := 0
  results : W64 := 0
  imp0 : W32 := 0
  imp1 : W32 := 0
  rx0 : List LWord := []
  rx1 : List LWord := []
  mmr : List LWord := []
  brg : List LWord := []
  mm : List MmAcc := []
  /-- Steps left when stepping by steps (R439). -/
  stepsLeft : Nat := 0
  /-- An earlier read was not delivered (R489). -/
  mmBroken : Bool := false
  deriving DecidableEq, Repr

/-- A clock-event word (R70, R72). -/
structure Cev where
  ecycle : Nat
  word : W64
  deriving DecidableEq, Repr

/-- The committed usage table of a region (R114): clusters as (tile, cluster), banks and arrays. -/
structure Usage where
  clusters : List (Nat × Nat) := []
  banks : List (Nat × Nat) := []
  arrays : List Nat := []
  deriving DecidableEq, Repr

/-- The two running CRCs of one compare interval, by its ECY_BASE (R354). -/
structure CompareAcc where
  base : Nat
  outCrc : Nat
  inCrc : Nat
  deriving DecidableEq, Repr

/-- What an emulation region holds beside its registers. -/
structure Rgn where
  /-- Period 0 has begun and the region has not been stopped (R68, R293, R300). -/
  released : Bool := false
  s0 : Nat := 0
  usage : Usage := {}
  cev : List Cev := []
  /-- The refresh grant is open (R122). -/
  grant : Bool := false
  /-- Periods whose tick and slip have been taken (R82, R86). -/
  ticked : Nat := 0
  /-- A join is in force for the old half's boundary entries up to this group ecycle (R303). -/
  joinOld : Option Nat := none
  /-- The half of the region that was active before the release of the join in force (R303). -/
  joinHalf : Nat := 0
  /-- Tick by which the latest half swap has reached every tile (R108). -/
  swapTick : Nat := 0
  /-- Registers that the committed image's BUILD_ID names (R420). -/
  buildId : List Byte := []
  /-- Loaded since the last fault (R132). -/
  loaded : Bool := false
  /-- Halt point: the period at whose step 0 each cluster holds (R438). -/
  haltAt : Option Nat := none
  haltReason : Nat := 0
  haltSrc : Nat := 0
  /-- Tick at which HALTED set (R440). -/
  haltTick : Nat := 0
  /-- Stepping in progress: in ecycles or steps (R439). -/
  stepping : Bool := false
  /-- Samples of R118 and R169 at the last look. -/
  lastCeLate : Nat := 0
  lastMmRange : Nat := 0
  lastIndRange : Nat := 0
  lastMnDup : Nat := 0
  lastEnded : Nat := 0
  /-- Power state wanted and reached: 0 ON, 1 RETENTION, 2 OFF (R377). -/
  pwrTarget : Nat := 0
  /-- Time HALTED was set since the region was last released, up to the latest STEP_GO (R440). -/
  haltSum : Nat := 0
  /-- Compare intervals under way, the ECY_BASE of the next record, the first ecycle whose input word has not been
  consumed, own records and the twin's that wait for their counterpart (R354, R355). -/
  cmp : List CompareAcc := []
  cmpBase : Nat := 0
  inNext : Nat := 0
  cmpOwn : List (List Byte) := []
  cmpTwin : List (List Byte) := []
  deriving DecidableEq, Repr

/-- A rigging bundle (R88), with the region that owns it: the OWNER of the entry it last left under. -/
structure Bundle where
  data : W64
  gen : Bool
  half : Nat
  slot : Nat
  vc : Nat
  owner : Nat
  deriving DecidableEq, Repr

/-- A bundle in an input or injection buffer with the copies still to be granted: (output, slot) pairs (R89, R90). -/
structure Waiting where
  b : Bundle
  todo : List (Nat × Nat)
  since : Nat
  deriving DecidableEq, Repr

/-- A bundle on a link, leaving by an output (R103). -/
structure Flying where
  out : Nat
  b : Bundle
  deriving DecidableEq, Repr

/-- A parked bundle (R97). -/
structure Parked where
  out : Nat
  half : Nat
  slot : Nat
  gen : Bool
  data : W64
  deriving DecidableEq, Repr

/-- A shroud's offer at an output (R109). -/
structure Offer where
  out : Nat
  half : Nat
  slot : Nat
  gen : Bool
  since : Nat
  deriving DecidableEq, Repr

/-- A rigging switch. Input buffers are keyed by 2 × input + class, injections by cluster name, counts (R302) and used
places by numbers the operations build. -/
structure Sw where
  bufs : Map (List Waiting) := []
  inj : Map (List Waiting) := []
  flying : List Flying := []
  parked : List Parked := []
  offers : List Offer := []
  used : Map Nat := []
  back : Map Nat := []
  counts : Map Nat := []
  /-- Delivery entries that discard below a count (R303): (output, half, slot) numbered, with J. -/
  joinBelow : Map Nat := []
  deriving DecidableEq, Repr

/-- An output word registered at the glue end and not yet released (R85). -/
structure OutWord where
  n : Nat
  w : W64
  at_ : Nat
  deriving DecidableEq, Repr

/-- A speed bridge and its link (R22, R85, R257). -/
structure Br where
  /-- Ticks on the link toward the glue end, by ecycle requested. -/
  ticks : List Nat := []
  /-- Input words on the link toward the latches. -/
  up : List LWord := []
  /-- Output words on the link toward the glue end. -/
  down : List LWord := []
  outCount : Nat := 0
  regd : List OutWord := []
  brOut : W64 := 0
  /-- Bits of BR_IN that glue logic drives. -/
  brIn : W64 := 0
  deriving DecidableEq, Repr

/-- A packet standing in a router buffer or an injection queue (R227, R228). Inputs and outputs 0 to 3 are N, E, S, W;
8 + p is endpoint p. -/
structure Flight where
  node : Nat
  net : Nat
  input : Nat
  vc : Nat
  wait : Nat
  pkt : Packet
  deriving DecidableEq, Repr

/-- What a held tag is for (R229). -/
inductive TagUse where
  | mm (t c : Nat)
  | stream (t port : Nat)
  | bar2 (hostTag : Nat)
  | jtag
  | capture (t : Nat)
  /-- A packet of tile `t`'s Telltale tap, on its way to the funnel (R455). -/
  | telltale (t : Nat)
  /-- A request of the configuration engine for the command in a channel (R406). -/
  | engine (chan : Nat)
  | other
  deriving DecidableEq, Repr

/-- A tag held by a requester until its last answer is sunk (R229). -/
structure TagHeld where
  node : Nat
  port : Nat
  tag : Nat
  req : Req
  use : TagUse
  deriving DecidableEq, Repr

/-- A write buffer reserved by an accepted WRB (R230). -/
structure WBuf where
  node : Nat
  port : Nat
  req : Req
  deriving DecidableEq, Repr

/-- The packet network. -/
structure Noc where
  flights : List Flight := []
  /-- Packets delivered to an endpoint and not yet taken. -/
  arrived : List Packet := []
  tags : List TagHeld := []
  wbufs : List WBuf := []
  /-- Inputs in the order of their last grants, the latest last, by node, network and output (R228). -/
  rr : Map (List Nat) := []
  /-- Requests that had reached their endpoint or controller when a region's fence point came, with the region (R234). -/
  before : List (Nat × Req) := []
  /-- Places of one router buffer (log 15). -/
  places : Nat := 2
  /-- Write buffers of one endpoint (log 15). -/
  wplaces : Nat := 4
  deriving DecidableEq, Repr

/-- A requester class at a scratchpad bank (R174). -/
inductive BankSrc where
  | mm (c : Nat)
  | sa (port : Nat)
  | noc (q : Req)
  | dbg (q : Req)
  deriving DecidableEq, Repr

/-- A request waiting at a scratchpad bank (R172, R175). -/
structure BankReq where
  src : BankSrc
  write : Bool
  addr : Nat
  len : Nat
  data : List Byte
  poison : Bool
  lost : Nat
  /-- Bytes read so far by a request of several words. -/
  got : List Byte
  bad : Bool
  deriving DecidableEq, Repr

/-- A scratchpad bank. -/
structure Bank where
  queue : List BankReq := []
  /-- A partial write whose read step has been made, and whose second cycle comes next (R180, R182). -/
  second : Option BankReq := none
  /-- Corrected words owed a write back (R182). -/
  owed : List Nat := []
  /-- Moving from RETENTION to ON (R180). -/
  waking : Bool := false
  /-- Moving from OFF to ON (R180). -/
  zeroing : Bool := false
  /-- The contents were lost in OFF and the bank has not been ON since. -/
  lost : Bool := false
  deriving DecidableEq, Repr

/-- A transaction in a slot of a channel controller (R194, R195, R230, R232). -/
structure Txn where
  slot : Nat
  req : Req
  data : List Byte
  poison : Bool
  /-- A WRB whose WDATA has not come. -/
  awaitData : Bool
  /-- Cache holders whose INV_ACK has not come, each as 128 × line + holder. -/
  acks : List Nat
  /-- Invalidations have been sent, or were not needed. -/
  inved : Bool
  /-- Lines it invalidates, whose filter entries go with the last INV_ACK (R232). -/
  inv : List Nat := []
  /-- It keeps a free way of the snoop filter for its fill. -/
  way : Bool := false
  /-- A write of whole words acknowledged and not yet performed: it has left its slot and keeps its place (R195, R230). -/
  acked : Bool := false
  deriving DecidableEq, Repr

/-- A request at a controller's port, with the fence state of every region that stood when its header arrived, bit m
for region Em (R192). -/
structure PortReq where
  req : Req
  fences : Nat
  deriving DecidableEq, Repr

/-- A line of a snoop filter with its holders: tile index, or 64 for the management complex (R232). -/
structure Snooped where
  line : Nat
  holders : List Nat
  deriving DecidableEq, Repr

/-- A DRAM channel controller. -/
structure Chan where
  port : List PortReq := []
  held : List Txn := []
  zeroed : Bool := false
  refreshing : Bool := false
  snoop : List Snooped := []
  scrub : Nat := 0
  /-- Refreshes pending at the start of a grant and still to be begun for it (R199). -/
  owed : Nat := 0
  /-- Commands to come that meet a command/address parity error at the stack (R184; log 34). -/
  caErr : Nat := 0
  deriving DecidableEq, Repr

/-- A fault raised by the hardware and not yet contained (R129, R130). -/
structure Raised where
  code : Nat
  region : Nat
  tile : Nat
  cluster : Nat
  ecycle : Nat
  detail : W64
  time : Nat
  internal : Bool
  deriving DecidableEq, Repr

/-- An event record in the queue (R404). -/
structure Event where
  code : Nat
  region : Nat
  seq : Nat
  time : Nat
  data : List Byte
  deriving DecidableEq, Repr

/-- The event queue and the MSI-X vectors signalled (R396, R404). -/
structure Events where
  queue : List Event := []
  seq : Nat := 0
  /-- Events discarded and not yet reported by EVENTS_LOST. -/
  lost : Nat := 0
  /-- Vectors signalled to the host, oldest first. -/
  msix : List Nat := []
  /-- Vectors waiting until the host enables MSI-X again (R335). -/
  msixHeld : List Nat := []
  deriving DecidableEq, Repr

/-- A completion sent to the host: the BAR, the request's tag or offset, 0 successful, 1 Unsupported Request or
2 Completer Abort, the EP bit and the data (R333). -/
structure HostCpl where
  bar : Nat
  key : Nat
  status : Nat
  ep : Bool
  data : List Byte
  deriving DecidableEq, Repr

/-- One piece of a BAR2 request, of at most 64 bytes: 0 not sent, 1 sent, 2 answered (R333). -/
structure Bar2Piece where
  addr : Nat
  len : Nat
  phase : Nat
  status : Nat
  poison : Bool
  data : List Byte
  deriving DecidableEq, Repr

/-- A BAR2 request the port has taken and not completed (R333). -/
structure Bar2Op where
  tag : Nat
  write : Bool
  pieces : List Bar2Piece
  deriving DecidableEq, Repr

/-- A read of host memory without completion (R334): its tag, and the channel whose payload it fetches, or the
packet-network request it answers. -/
structure HostRead where
  tag : Nat
  chan : Nat
  req : Option Req
  deriving DecidableEq, Repr

/-- The host port beside HP_STAT (R333 to R335). -/
structure HostPort where
  bar2 : List Bar2Op := []
  reads : List HostRead := []
  /-- Completions sent to the host, and writes sent to host memory as address and bytes, oldest first. -/
  cpls : List HostCpl := []
  writes : List (Nat × List Byte) := []
  /-- Errors logged in AER for BAR2 writes: 1 Unsupported Request, 2 Completer Abort. -/
  aer : List Nat := []
  msixOn : Bool := false
  busMaster : Bool := false
  cplTimeoutUs : Nat := 50000
  deriving DecidableEq, Repr

/-- A link record (R329). -/
structure LinkRec where
  first : Nat
  width : Nat
  mode : Nat
  rate : Nat
  classes : Nat
  flags : Nat
  errLimit : Nat
  idleUs : Nat
  sleepMs : Nat
  densMin : Nat
  deriving DecidableEq, Repr

/-- An entry waiting for a frame (R319): its class, its NoC network, and its bytes; a WR's two entries stand together. -/
structure TxEntry where
  cls : Nat
  net : Nat
  bytes : List Byte
  deriving DecidableEq, Repr

/-- Capability blocks a lane has received (R314): the pieces of the block under way and the last whole one. -/
structure CapRx where
  lane : Nat
  pieces : List (Nat × List Byte)
  last : List Byte
  /-- Two identical valid blocks have been received. -/
  agreed : Bool
  deriving DecidableEq, Repr

/-- What a link sends: a control block by its type on every lane, an IDLE block with its acknowledgement field, a capability
block on a lane (in its four CAP blocks, R311), a frame, or the training burst of 64 blocks that ends electrical idle
(R324). -/
inductive LinkOut where
  | burst
  | control (type_ : Nat)
  | ack (seq : Nat) (nak : Bool)
  | cap (lane : Nat) (block : List Byte)
  | frame (bytes : List Byte)
  deriving DecidableEq, Repr

/-- A lane test in progress (R326). -/
structure LaneTest where
  mode : Nat
  pattern : Nat
  chan : Nat
  lanes : List Nat
  durationMs : Nat
  deriving DecidableEq, Repr

/-- A link, kept under its first lane (R310 to R330). -/
structure Link where
  /-- The record in force; none while the link is DOWN without one. -/
  conf : Option LinkRec := none
  /-- A record that waits for START (R330). -/
  recorded : Option LinkRec := none
  /-- A management link (R330). -/
  mgmt : Bool := false
  stageFails : Nat := 0
  /-- A poll among the consecutive failures found a receiver (R315). -/
  found : Bool := false
  /-- The transmit direction is in a short retrain and holds its frames (R317, R325). -/
  txHeld : Bool := false
  caps : List CapRx := []
  /-- Lanes that the link runs on: its width, or less under NARROW (R316). -/
  lanes : Nat := 0
  txSeq : Nat := 0
  rxNext : Nat := 0
  nakSent : Bool := false
  retry : List (Nat × List Byte) := []
  replays : Nat := 0
  crcBad : Nat := 0
  txq : List TxEntry := []
  /-- Cumulative counts by class and network: entries sent, places the partner has freed, places freed here (R318). -/
  sent : Map Nat := []
  freed : Map Nat := []
  ownFreed : Map Nat := []
  /-- Counts of own places that a frame has told the partner. -/
  told : Map Nat := []
  /-- Classes enabled at both ends (R316), and POWER of the partner's capability block (R314). -/
  classesOn : Nat := 0
  partnerPower : Nat := 0
  /-- Requests the hub has forwarded over the link and that have no completion yet (R224). -/
  forwarded : List Req := []
  /-- Frames since each class was last served, by class, while it had an entry to send (R320). -/
  unserved : Map Nat := []
  /-- Entries received that still occupy a place: class, network, bytes. -/
  inbox : List TxEntry := []
  test : Option LaneTest := none
  /-- Scrambler registers of an Ethernet lane, sending and receiving (R327). -/
  scrTx : Nat := 0
  scrRx : Nat := 0
  /-- The BER monitor of an Ethernet lane: the number of its window under way, invalid sync headers in it, and a high error
  rate in force (R327; log 101). -/
  berAt : Nat := 0
  berBad : Nat := 0
  hiBer : Bool := false
  out : List LinkOut := []
  /-- Blocks of the stream sent since the link became ACTIVE, MARKER_SEQ of the next ALIGN, scrambler register by
  lane in the link (R311, R312). -/
  pos : Nat := 0
  markerSeq : Nat := 0
  scr : Map Nat := []
  /-- Blocks as sent on the lanes: lane in the link, sync header, scrambled payload (R311, R312). -/
  wire : List (Nat × Nat × W64) := []
  /-- The latest ALIGN block of each lane: lane, MARKER_SEQ, tick of its arrival (R312). -/
  aligns : List (Nat × Nat × Nat) := []
  deriving DecidableEq, Repr

/-- Clocks: dividers of the Yards as twice their value (R363, R364), open yards (R367), what R364 leaves without rules. -/
structure Clk where
  step2 : Nat := 8
  noc2 : Nat := 16
  glue2 : Nat := 32
  pbus2 : Nat := 48
  /-- Open yards. At reset none is: GATED resets to 1, and a yard is never open below a closed one (R368; log 12). -/
  opened : List Nat := []
  undef : Bool := false
  /-- Reefing evaluations in a row that met the release condition (R381; log 51). -/
  releaseMs : Nat := 0
  /-- The firmware's level, which is in force while EMERG is clear (R382). -/
  fwLevel : Nat := 0
  /-- EMERG has changed since the last evaluation; the level that the latest REEF_LEVEL event reported (R382). -/
  emergDue : Bool := false
  reported : Nat := 0
  /-- Sum and number of the power estimates since the last evaluation (R381). -/
  pwrSum : Nat := 0
  pwrCount : Nat := 0
  /-- A change of clock row that waits for its edge (R365). -/
  switchTo : Option Nat := none
  deriving DecidableEq, Repr

/-- Supplies, reset pins and start-up (R373 to R376, R429). -/
structure Pwr where
  porstN : Bool := true
  perstN : Bool := true
  tamperN : Bool := true
  /-- One bit for each rail that is good, in the order of the supply table. -/
  rails : Nat := 1023
  href : Bool := true
  /-- The device is held in reset (R375). -/
  inReset : Bool := false
  /-- The secure SRAM has been wiped since release (R205). -/
  wiped : Bool := false
  /-- The firmware runs (R374, R426). -/
  firmware : Bool := false
  /-- The firmware has run since the release: what starts it again is a restart of the management complex (R32). -/
  started : Bool := false
  /-- The pads' latch of R376 has let go. -/
  padsReleased : Bool := true
  /-- A trip whose cause still stands holds the device in reset (R429). -/
  tempTrip : Bool := false
  /-- The two temperature sensors of the I/O die, in TEMP units (R378). -/
  ioTemp0 : Nat := 0
  ioTemp1 : Nat := 0
  deriving DecidableEq, Repr

/-- One element in a port's FIFO (R160). On a read port `val` is none until the element has come;
on a write port the element waits for its store. `elem` is the ELEM code. -/
structure PortWord where
  addr : Nat
  elem : Nat
  val : Option W32
  ecc : Nat
  /-- What has been asked for it and not answered: 0 nothing, 1 an access of its own, 2 the fill of its cache line (R162). -/
  asked : Nat := 0
  deriving DecidableEq, Repr

/-- A stream port: its FIFO and its place in the chain; none stands for element 0 of FIRST_DESC (R160, R170). -/
structure Port where
  fifo : List PortWord := []
  desc : Option Nat := none
  idx : Nat := 0
  /-- Deliveries of the element at `idx` so far (R159). -/
  rep : Nat := 0
  /-- The chain has ended for the fetching, or pushing, side. -/
  done : Bool := false
  /-- The store of the first element is under way. -/
  storing : Bool := false
  deriving DecidableEq, Repr

/-- A line of a stream cache (R162). -/
structure CacheLine where
  line : Nat
  data : List Byte
  ecc : Nat
  deriving DecidableEq, Repr

/-- A sequencer thread beside the fields of ARR_STATUS (R150, R152, R163). -/
structure Thread where
  /-- 0 at a switch step, else the number of the next run step. -/
  run : Nat := 0
  frame : Nat := 0
  /-- The frame has begun (R153). -/
  begun : Bool := false
  ctx : Nat := 0
  /-- The context as the switch step loaded it (R150, R167). -/
  cfg : List Byte := []
  /-- Values latched by the MNI slots (R155). -/
  mni : List W32 := []
  /-- Steps left when stepping by steps (R439). -/
  stepsLeft : Nat := 0
  /-- The thread's latest CLK_STEP cycle was a hold (R165). -/
  held : Bool := false
  deriving DecidableEq, Repr

/-- A stream array (R136 to R170): output registers, predicates and held mesh inputs by FU, threads, handoff words,
ports, cache. -/
structure Arr where
  outs : Map W32 := []
  preds : Map Bool := []
  /-- Mesh inputs held one step, by 4 × FU + side (R143). -/
  mesh : Map W32 := []
  h : Thread := {}
  t : Thread := {}
  handoff : Map W32 := []
  ports : Map Port := []
  cache : List CacheLine := []
  /-- Lines being fetched for the cache; those among them that are not to be kept, as they were invalidated meanwhile. -/
  fills : List Nat := []
  stale : List Nat := []
  /-- The thread whose hold has counted the cycle under way, while the other thread of split mode has not had its step of
  that cycle (R165). -/
  heldBy : Option Nat := none
  /-- Macro-node words written, as (frame, word) (R156). -/
  wrote : List (Nat × Nat) := []
  deriving DecidableEq, Repr

/-- A GPIO pin beside its registers: the level outside the part, and the output level, enable and pull its pad last took
(R267, R268, R270). -/
structure Pin where
  level : Bool := false
  out : Bool := false
  oe : Bool := false
  /-- PULL of the pad, 2 down at reset; the latch of R376 holds it. -/
  pull : Nat := 2
  /-- The synchroniser's two flops, and the cycles for which the second has differed from IN (R267). -/
  s1 : Bool := false
  s2 : Bool := false
  cnt : Nat := 0
  /-- The pad takes its function's output at the next CLK_GLUE edge (R268). -/
  pending : Bool := false
  deriving DecidableEq, Repr

/-- A BAR4 request at the user bus port of a glue region (R261). -/
structure Bar4Req where
  n : Nat
  off : Nat
  size : Nat
  write : Bool
  value : W64
  /-- The packet-network request it answers; none for the host's. -/
  req : Option Req := none
  deriving DecidableEq, Repr

/-- Pads and glue fabric. -/
structure Glue where
  pads : Map Pin := []
  /-- Pads have taken their functions at START (R270). -/
  live : Bool := false
  /-- Trees whose switch waits because the old source has stopped (R247, R371). -/
  switching : List Nat := []
  bar4 : List Bar4Req := []
  /-- Words the flash read port has returned to glue logic (R256). -/
  flashOut : List W64 := []
  /-- Flip-flops that differ from their INIT value, under 8 × (6,144 × region + bay) + cell (R239). -/
  ffs : Map Bool := []
  /-- Outputs of block RAM ports, bit 72 the error flag, under 2 × (36 × region + block) + port (R242). -/
  ramOut : Map Nat := []
  /-- Asserted trees among GSR1 to GSR3, bit k for GSRk (R248). -/
  gsr : Nat := 0
  /-- Bridges whose BR_TICK is high until the next CLK_GLUE edge (R257). -/
  ticked : List Nat := []
  /-- Bytes in the FIFOs of the user serial blocks, oldest first, with their block: 0 UART1, 1 SPI1, 2 I2C1 (R255). -/
  serTx : List (Nat × Byte) := []
  serRx : List (Nat × Byte) := []
  /-- Errors of the latest 16 windows of each DCO, latest first (R252). -/
  dcoErrs : Map (List Int) := []
  /-- Fine code of each DCO in ppm of its frequency, and coarse setting in steps from the one its latest enable or
  frequency chose (R250, R385). -/
  dcoFine : Map Int := []
  dcoCoarse : Map Int := []
  /-- Blocks that glue logic has offered to raw and Ethernet lanes and that wait for a slot, and blocks that those lanes
  have sent, oldest first: lane, sync header, payload (R260, R327, R328). -/
  offers : List (Nat × Nat × W64) := []
  rawTx : List (Nat × Nat × W64) := []
  /-- Pins that a partial commit has bound, with their region: their pads change at its release (R270). -/
  waiting : List (Nat × Nat) := []
  /-- Pins that the new image of a region no longer binds, freed at its release (R299). -/
  unbind : List (Nat × Nat) := []
  deriving DecidableEq, Repr

/-- A record of a capture unit that has not been stored: period and step, cluster name, value (R459). -/
structure CapRec where
  c : Nat
  p : Nat
  cluster : Nat
  data : W64
  conflict : Bool
  deriving DecidableEq, Repr

/-- A capture unit beside its registers: staged records in step order, and the boundaries at which it starts and stops. -/
structure Cap where
  staged : List CapRec := []
  startAt : Option Nat := none
  stopAt : Option Nat := none
  /-- A record has been taken since the start. -/
  first : Bool := false
  deriving DecidableEq, Repr

/-- A packet of a Telltale source in its tap's buffer (R447, R448). -/
structure TtPacket where
  t : Nat
  src : Nat
  bytes : List Byte
  deriving DecidableEq, Repr

/-- A Telltale source, under 2 × tile + source (R447 to R453). -/
structure TtSource where
  atoms : List Bool := []
  thread : Nat := 0
  sinceSync : Nat := 0
  prev : Nat := 0
  lost : Nat := 0
  deriving DecidableEq, Repr

/-- Telltale trace: every buffered packet in the order of sending, the sources, the tiles that the latest TRACE_SET
selected (R458). -/
structure Trace where
  packets : List TtPacket := []
  /-- Requests of the taps that the funnel has received and not yet sunk, oldest first (R455). -/
  atFunnel : List Req := []
  sources : Map TtSource := []
  flowTiles : Nat := 0
  dataTiles : Nat := 0
  deriving DecidableEq, Repr

/-- The TAP (R431 to R435): instruction, boundary-scan cells as (cell, level, enable), and the debug access under way
with the outcome of the latest completed one. -/
structure Tap where
  /-- At power-up IDCODE is selected, as after a TAP reset (log 25). -/
  ir : Nat := 1
  bsr : List (Nat × Bool × Bool) := []
  /-- DR value captured by the latest scan, and its width. -/
  dr : Nat := 0x1964_074D
  drBits : Nat := 32
  busy : Bool := false
  data : W64 := 0
  err : Bool := false
  status : Nat := 0
  poison : Bool := false
  deriving DecidableEq, Repr

/-- A CSYNC action at a device (R340, R342). -/
structure CsyncAction where
  cmd : Nat
  seq : Nat
  at_ : Nat
  committed : Bool
  join : Option Nat
  deriving DecidableEq, Repr

/-- A CSYNC action at the master (R342): the channel it serves, the positions addressed, those that have answered OK, and
the regions of a resume. Position p of member B counts as 16 + p. -/
structure CsyncIssue where
  cmd : Nat
  seq : Nat
  at_ : Nat
  need : List Nat
  acks : List Nat
  chan : Option Nat
  regions : Nat
  join : Option Nat
  deriving DecidableEq, Repr

/-- CASCADE_FORM in progress (R343, R344). -/
structure Form where
  chan : Nat
  expected : Nat
  bExpected : Nat
  add : Bool
  pair : Bool
  links : List Nat
  found : List Discovery
  /-- A position found twice, or a device that differs. -/
  bad : List Nat
  deriving DecidableEq, Repr

/-- A unit of the items of R360, which no address of the internal map holds: a cluster, a tile's switches, an array, a speed
bridge, each under its own key, and a region's clock-event words and S0. -/
inductive UnitItem where
  | clu (k : Nat) (u : Clu)
  | sw (t : Nat) (u : Sw)
  | arr (t : Nat) (u : Arr)
  | br (m : Nat) (u : Br)
  | rgn (m : Nat) (cev : List Cev) (s0 : Nat)
  deriving DecidableEq, Repr, Inhabited

/-- Messages the firmware sends over Aelbel management: the spec gives their content and not their format (log 92; R130, R283, R342, R343, R345, R349, R356). -/
inductive MgmtMsg where
  /-- A fault record, to the master (R130). -/
  | fault (record : List Byte)
  /-- Halt the regions linked to a region at the boundary of a group ecycle (R445). -/
  | haltGroup (m ecycle : Nat)
  /-- The master halts the regions that a fault record names, on every other device (R130, R350). -/
  | haltScope (record : List Byte)
  /-- A discovery message relayed or answered (R343). -/
  | discovery (d : Discovery)
  /-- A command relayed to a position (R399), and a follower's answer. -/
  | relay (pos opcode : Nat) (payload : List Byte)
  | relayReply (opcode status : Nat) (result : List Byte)
  /-- ACK of a frame, COMMIT to a position, CSYNC_MISS (R342). -/
  | ack (seq status : Nat)
  | commit (pos seq : Nat) (join : Option Nat)
  | csyncMiss (seq : Nat)
  /-- A frame sent on CSYNC_OUT (R340). -/
  | csync (frame : BitVec 80)
  /-- The largest count latched under JOIN_PREP (R349). -/
  | joinCount (count : Nat)
  /-- A device's status after a Halyard broadcast (R283). -/
  | halyardStatus (status : Nat)
  /-- A role change passed to the master of the member (R356). -/
  | role (r : Nat)
  /-- Resync data (R359): the ranges of DRAM copied, as first byte and length, and every byte of them that is not 0. -/
  | resyncPages (ranges : List (Nat × Nat)) (cells : List Host.Cell)
  /-- The items of R360 of the frozen member: every register and memory byte not at its default, and its units. -/
  | resyncItems (regs : Map W64) (mem : List Host.Cell) (units : List UnitItem)
  deriving DecidableEq, Repr

/-- What a cascade device holds beside its registers (R337 to R361). -/
structure Casc where
  /-- Messages sent over Aelbel management, oldest first. -/
  outbox : List MgmtMsg := []
  /-- The CSYNC action this device has accepted, and whether its COMMIT has come (R342). -/
  action : Option CsyncAction := none
  /-- The action the master has sent and collects acknowledgements for. -/
  issue : Option CsyncIssue := none
  seq : Nat := 0
  /-- CASCADE_FORM in progress (R343). -/
  form : Option Form := none
  /-- Positions that have reported READY (R348). -/
  ready : List Nat := []
  /-- Largest counts reported after JOIN_PREP, by position (R349). -/
  joinCounts : List (Nat × Nat) := []
  /-- Regions whose boundary and delivery entries JOIN_PREP has paused (R349). -/
  paused : List Nat := []
  /-- Positions of member B that are present (R343, R352). -/
  twins : Nat := 0
  deriving DecidableEq, Repr

/-- An image being staged (R281 to R283): its length and kind, the bytes that have arrived, and where it comes from:
1 host, 2 flash primary, 3 flash golden, 4 Halyard. -/
structure Staging where
  total : Nat
  kind : Nat
  got : Nat
  source : Nat
  deriving DecidableEq, Repr

/-- The retained image (R284): where it lies in DRAM, its length and source. -/
structure Retained where
  base : Nat
  total : Nat
  source : Nat
  deriving DecidableEq, Repr

/-- A release that START or REGION_RESUME has arranged (R293, R300). -/
structure Release where
  at_ : Nat
  resume : Bool
  es : List Nat
  gs : List Nat
  leadSent : Bool
  /-- J of a join across devices, where the master computed it (R349). -/
  join : Option Nat
  chan : Option Nat
  deriving DecidableEq, Repr

/-- The configuration engine (R281 to R300). -/
structure Engine where
  staging : Option Staging := none
  retained : Option Retained := none
  releases : List Release := []
  /-- BUILD_ID and image hash of the latest full commit (R403, R420). -/
  fullBuild : List Byte := []
  fullHash : List Byte := []
  /-- BUILD_ID that last committed each glue region (R420). -/
  glueBuild : Map (List Byte) := []
  /-- Flash load under way: the slot (R282). -/
  flash : Option Nat := none
  /-- The boot from flash has been made (R282). -/
  booted : Bool := false
  /-- Regions that a commit has configured: those an image of the device serves (R290, R293). -/
  configured : List Nat := []
  /-- Glue regions loaded since their latest fence (R300). -/
  glueLoaded : List Nat := []
  deriving DecidableEq, Repr

/-- What a command that has not completed waits for (R393). -/
inductive Task where
  /-- The firmware does not run yet (R400). -/
  | held
  /-- As `held`, with its payload still in host memory (R393). -/
  | heldPtr
  /-- Its payload is being fetched from host memory (R398). -/
  | payload
  | halt (mask : Nat)
  /-- STEP: the first halt is still awaited while `begun` is false. -/
  | step (mask unit count : Nat) (begun : Bool)
  | fence (mask : Nat)
  | release (mask : Nat)
  | csync
  | power (mask : Nat)
  | flash
  | laneTest (first : Nat)
  | form
  | resync (member : Nat)
  /-- STATE_READ or STATE_WRITE of `len` bytes at `addr` (R406): what has been done, the data read, poison among it. -/
  | access (write : Bool) (addr len done : Nat) (got : List Byte) (poison : Bool)
  | relay (pos : Nat)
  | drainTrace
  | fwRestart
  deriving DecidableEq, Repr

/-- A command in a channel; channel 16 stands for a command the cascade master has relayed. -/
structure MciCmd where
  chan : Nat
  opcode : Nat
  desc : Desc
  task : Task
  deriving DecidableEq, Repr

/-- The command interface. Claims are keyed by 1024 × kind + index: 1 HOST, 2 the firmware, 16 + m region m through its
image; DRAM granules are claimed in the ownership table itself (R407). -/
structure Mci where
  cmds : List MciCmd := []
  claims : Map Nat := []
  deriving DecidableEq, Repr

/-- A resync under way (R359): 1 bulk and dirty passes, 2 freeze awaited, 3 frozen, 4 release awaited. -/
structure Resync where
  phase : Nat
  member : Nat
  copied : Nat
  passes : Nat
  frozenAt : Nat
  deriving DecidableEq, Repr

/-- A Ketch pair beside its registers (R352 to R360). -/
structure Ketch where
  /-- The member holds an internal fault not cleared by a resync (R354). -/
  fault : Bool := false
  /-- The member became active during a silence (R358). -/
  silent : Bool := false
  /-- A silence has suspended compare (R358). -/
  suspended : Bool := false
  /-- The twin's member is OUT_OF_SERVICE (R355). -/
  twinOut : Bool := false
  resync : Option Resync := none
  /-- 4 KiB DRAM pages written since the bulk copy began (R359). -/
  marking : Bool := false
  marks : List Nat := []
  deriving DecidableEq, Repr

/-- Health and repair (R124 to R128, R135, R386 to R388). -/
structure Health where
  /-- Lost resources. -/
  lost : List Resource := []
  /-- Clusters that failed and wait for a remap; DRAM words that wait for a row repair. -/
  remaps : List (Nat × Nat) := []
  rows : List Nat := []
  withdrawn : List Nat := []
  suspects : List Resource := []
  mapSeq : Nat := 0
  degraded : Nat := 0
  /-- Corrected errors of a unit at the last look, under a key from 2 ^ 48 on; one more than the tick of the latest corrected
  error of a DRAM row, under its first byte (R387, R388). -/
  ceSeen : Map Nat := []
  /-- Registers that the repair map in embedded flash restores after a reset (R374, R390). -/
  kept : Map W64 := []
  deriving DecidableEq, Repr

/-- Security, life cycle and flash (R411 to R430). -/
structure Sec where
  /-- 0 BLANK, 1 DEVELOP, 2 FIELD, 3 RETURN, 4 END. -/
  lifecycle : Nat := 0
  vendorHash : List Byte := []
  customerHash : List Byte := []
  minSvn : Nat := 0
  tamperCount : Nat := 0
  active : Nat := 0
  pendingSlot : Option Nat := none
  fallback : Bool := false
  fwVersion : Nat := 0
  fwSvn : Nat := 0
  fwHash : List Byte := []
  challenge : Option (List Byte) := none
  unlocked : Bool := false
  scope : Nat := 0
  /-- SPI0 flash outside the part. -/
  spi : List Host.Cell := []
  /-- The boot record that the latest device reset took from flash; empty where it failed its checks (R412). -/
  boot : List Byte := []
  /-- The wrapped identity key has been erased (R423). -/
  keyErased : Bool := false
  /-- Records of a failed boot and of a tamper trip that the firmware requeues after a device reset (R404). -/
  bootFail : Option (List Byte) := none
  tamperRec : Option (List Byte) := none
  deriving DecidableEq, Repr

/-- The whole state of the part. -/
structure State where
  /-- Commands waiting, first in, first out. -/
  pending : List Instr
  part : Part
  /-- The time base, in TB ticks (R80). -/
  tb : Nat
  /-- REFCNT (R339). -/
  refcnt : Nat
  /-- The model's own counter, applied to the free values of Config (log 7). -/
  free : Nat
  mem : List Host.Cell
  /-- Words with an error: 1 correctable, 2 uncorrectable (R64, R182, R201). -/
  ecc : Map Nat
  /-- Bytes that no longer take a write, and bytes that fail their next write (R287, R386). -/
  defects : List Nat
  transients : List Nat
  regs : Map W64
  clus : Map Clu
  rgns : Map Rgn
  sws : Map Sw
  brs : Map Br
  noc : Noc
  banks : Map Bank
  chans : Map Chan
  raised : List Raised
  events : Events
  host : HostPort
  links : Map Link
  /-- What raw and Ethernet lanes present to the glue fabric from the next CLK_GLUE edge on (R260, R327, R328): lane, sync
  header of a block or control bits of a transfer, and data. -/
  rawRx : List (Nat × Nat × W64)
  clk : Clk
  pwr : Pwr
  /-- Last temperature reading of each stack, in °C (R184). -/
  stackTemps : Map Int
  /-- Stream arrays by tile. -/
  arrs : Map Arr
  glue : Glue
  caps : Map Cap
  trace : Trace
  tap : Tap
  casc : Casc
  engine : Engine
  mci : Mci
  ketch : Ketch
  health : Health
  sec : Sec
  deriving DecidableEq, Repr

/-- The state right after the release of device reset with HREFCLK present and every rail good: power-up of VDD_AON has
set every register to its reset value; the Mast has not locked and the firmware does not run (R374; log 1). -/
def State.reset : State :=
  { pending := [], part := {}, tb := 0, refcnt := 0, free := 0, mem := [], ecc := [], defects := [], transients := [],
    regs := [(0x15_1007_0000, 0x10)], clus := [], rgns := [], sws := [], brs := [], noc := {}, banks := [], chans := [],
    raised := [], events := {}, host := {}, links := [], rawRx := [], clk := {}, pwr := {}, stackTemps := [], arrs := [],
    glue := {}, caps := [], trace := {}, tap := {}, casc := {}, engine := {}, mci := {}, ketch := {}, health := {}, sec := {} }

end Sys2Proof.Machine
end

