-- ==== Sys2Proof/Config.lean ====
section
/-! DEFINITION. What no state of the model fixes: the free values of the spec, as opaque constants without a body.
Each is applied to the model's own counter `State.free`, or to the data it depends on (log 7). -/

namespace Sys2Proof.Config

/-- A number the spec leaves open: which CLK_GLUE edge at least 1 µs ahead START or REGION_RESUME chooses (R293), which
reference edge a CSYNC frame names (R342), a sequence number that opens a run (R340). -/
opaque freeNat : Nat → Nat

/-- One byte of a random value (R416): a challenge (R424), the randomness of a signature. -/
opaque freeByte : Nat → Byte

/-- The bytes of an ML-DSA-44 signature the device makes with its identity key over the given bytes, with the
randomness of the given draw (R415, R416, R420). -/
opaque identitySignature : Nat → List Byte → List Byte

/-- A signal that the spec leaves open, by its number, at the given draw: what a hard block's function drives on its pads,
whether a byte moves through a serial block, a wire in a combinational loop (R254, R255; log 7). -/
opaque glueBit : Nat → Nat → Bool

/- The glue fabric's frames, whose bits the spec does not lay out (R243; log 7). Each function takes the bytes of the frame
or frames that hold what it reads. -/

/-- A bay, from its type-0 frame (R239). -/
opaque bayOf : List Byte → Machine.Bay

/-- The driver-select code of a long line, from its type-1 frame and its number there (R241). -/
opaque lineCode : List Byte → Nat → Nat

/-- The driver that a code names for a long line, or none (R241). -/
opaque lineDriver : Nat → Nat → Nat → Option Machine.Wire

/-- A block RAM's shape and ports, from its type-3 frame (R242). -/
opaque ramOf : List Byte → Machine.RamCfg

/-- A boundary cell, from its region's type-4 frames (R245). -/
opaque boundaryOf : List Byte → Nat → Machine.Boundary

/-- The cell output of G0 that drives GSR1 to GSR3, from G0's type-4 frames (R248). -/
opaque gsrOf : List Byte → Nat → Option Machine.Wire

/-- The wire that drives a signal into a hard resource, from every frame of its region but block RAM contents; none where
nothing drives it. -/
opaque sinkOf : List Host.Cell → Machine.GlueOut → Option Machine.Wire

/-- A unit's contents as an entry of a resync brings them, from its OFFSET and data (R360; log 57). -/
opaque resyncUnit : Nat → List Byte → Machine.UnitItem

/-- The frequency step of a DCO's coarse setting, in ppm of its frequency (R385; log 109). -/
opaque coarseStep : Nat → Nat

/-- The DCOs whose edges fall in the CLK_GLUE cycle of the given draw, in order: a DCO runs at a frequency unrelated to
CLK_GLUE (R250). -/
opaque dcoEdges : Nat → List Nat

/-- The address latency in ticks that the spec bounds but does not fix, for the named delay at the given draw. -/
opaque freeDelay : Nat → Nat → Nat

/-- A word the spec leaves open where a step goes on: the draw, and which of the open values of that draw it is. -/
opaque freeWord : Nat → Nat → BitVec 64

/-- The 8 check bits of the SECDED code over 64 data bits, whose code the spec does not give (R220, R319). -/
opaque checkByte : BitVec 64 → BitVec 8

end Sys2Proof.Config
end

