-- ==== Sys2Proof/Machine/Bits.lean ====
section
/-! DEFINITION. Bit fields of 64-bit words, saturating counters, and the cyclic redundancy checks the spec names
(IEEE 802.3 CRC-32, CRC-32C, CRC-8 of polynomial 0x07). -/

namespace Sys2Proof.Machine

/-- Field of `w` bits from bit `lo` of a 64-bit word, as a number. -/
def fld (v : W64) (lo w : Nat) : Nat := (v.extractLsb' lo w).toNat

/-- Bit `i` of a 64-bit word. -/
def bit (v : W64) (i : Nat) : Bool := v.getLsbD i

/-- `v` with its field of `w` bits from bit `lo` replaced by the low bits of `x`. -/
def putFld (v : W64) (lo w x : Nat) : W64 :=
  (v &&& ~~~(((BitVec.allOnes w).setWidth 64) <<< lo)) ||| (((BitVec.ofNat w x).setWidth 64) <<< lo)

/-- A mask of `w` ones from bit `lo`. -/
def ones (lo w : Nat) : W64 := ((BitVec.allOnes w).setWidth 64) <<< lo

/-- 1 for true, 0 for false. -/
def b2n (b : Bool) : Nat := if b then 1 else 0

/-- `n + k`, stopping at the largest value of a `w`-bit counter: the counters of the spec saturate. -/
def satAdd (w n k : Nat) : Nat := min (n + k) (2 ^ w - 1)

/-- `n` rounded up to a multiple of `k`. -/
def roundUp (n k : Nat) : Nat := if k = 0 then n else (n + k - 1) / k * k

/-- A slice of a byte string. -/
def sub (bs : List Byte) (off len : Nat) : List Byte := (bs.drop off).take len

/-- The little-endian number at an offset of a byte string (R8). -/
def leNum (bs : List Byte) (off len : Nat) : Nat := natOfBytes (sub bs off len)

/-- Whether every byte is zero: reserved fields, padding. -/
def allZero (bs : List Byte) : Bool := bs.all (· == 0)

/-- `n` zero bytes. -/
def zeros (n : Nat) : List Byte := List.replicate n 0

/-- The ASCII bytes of a magic word. -/
def ascii (s : String) : List Byte := s.toList.map fun c => BitVec.ofNat 8 c.toNat

/-- One bit step of a reflected CRC: shift right, and add the polynomial when a one falls out. -/
def crcBit (poly crc : Nat) : Nat := if crc % 2 = 1 then (crc / 2) ^^^ poly else crc / 2

/-- `n` bit steps of a reflected CRC. -/
def crcBits (poly : Nat) : Nat → Nat → Nat
  | 0, crc => crc
  | n + 1, crc => crcBits poly n (crcBit poly crc)

/-- A reflected CRC advanced by the bytes of a string. -/
def crcBytes (poly : Nat) : Nat → List Byte → Nat
  | crc, [] => crc
  | crc, b :: rest => crcBytes poly (crcBits poly 8 (crc ^^^ b.toNat)) rest

/-- CRC-32 of IEEE 802.3 over a byte string (R279, R314, R318, R412). -/
def crc32 (bs : List Byte) : Nat := crcBytes 0xEDB88320 0xFFFFFFFF bs ^^^ 0xFFFFFFFF

/-- CRC-32C of R354, before its final inversion, advanced by one 64-bit word. -/
def crc32cWord (crc : Nat) (w : W64) : Nat := crcBytes 0x82F63B78 crc (bytesOfNat 8 w.toNat)

/-- One bit of the CRC-8 of polynomial 0x07, most significant bit first (R311, R340). -/
def crc8Bit (crc : Nat) (b : Bool) : Nat :=
  let top := decide (crc / 128 % 2 = 1)
  let sh := crc * 2 % 256
  if top != b then sh ^^^ 7 else sh

/-- CRC-8 of polynomial 0x07 over a bit string in the order the bits are sent. -/
def crc8 (bits : List Bool) : Nat := bits.foldl crc8Bit 0

/-- The bits of a byte string, each byte most significant bit first. -/
def bitsOfBytes (bs : List Byte) : List Bool :=
  bs.flatMap fun b => (List.range 8).map fun i => b.getLsbD (7 - i)

end Sys2Proof.Machine
end

