-- ==== Sys2Proof/Machine/Keccak.lean ====
section
/-! DEFINITION. The hashes of FIPS 202 that the spec names: SHA3-256 (R278, R415), and SHAKE128 and SHAKE256, on which the
ML-DSA-44 of FIPS 204 rests. The 1,600 bits of the sponge are one number: the lane at (x, y) is its 64 bits from bit
64 x + 320 y, so that a row of five lanes is 320 bits and theta and chi act on whole rows. -/

namespace Sys2Proof.Machine

/-- Row `y` of the sponge. -/
def kRow (s y : Nat) : Nat := s >>> (320 * y) % 2 ^ 320

/-- A row whose lane x is the row's lane x + k, modulo 5. -/
def kTurn (row k : Nat) : Nat := row >>> (64 * k) ||| row <<< (320 - 64 * k) % 2 ^ 320

/-- Bit 0 of every lane of a row. -/
def kUnits : Nat := 2 ^ 0 + 2 ^ 64 + 2 ^ 128 + 2 ^ 192 + 2 ^ 256

/-- Every lane of a row rotated left by one bit. -/
def kTwist (row : Nat) : Nat := row <<< 1 % 2 ^ 320 &&& (2 ^ 320 - 1 - kUnits) ||| row >>> 63 &&& kUnits

/-- Theta: every row takes the parities of the columns to the left and, a bit earlier, to the right. -/
def kTheta (s : Nat) : Nat :=
  let c := kRow s 0 ^^^ kRow s 1 ^^^ kRow s 2 ^^^ kRow s 3 ^^^ kRow s 4
  let d := kTurn c 4 ^^^ kTwist (kTurn c 1)
  s ^^^ (d * (2 ^ 0 + 2 ^ 320 + 2 ^ 640 + 2 ^ 960 + 2 ^ 1280))

/-- A lane moved: rotated left by `r` bits into the place (x, y). -/
def kMoved (lane r x y : Nat) : Nat := ((lane <<< (r % 64) ||| lane >>> (64 - r % 64)) % 2 ^ 64) <<< (64 * x + 320 * y)

/-- Rho and pi in one walk: from (1, 0) the lane at (x, y) goes to (y, 2 x + 3 y), rotated by the triangular number of its
step; `n` lanes are still to move, `acc` holds those that have. -/
def kWalk (s : Nat) : Nat → Nat → Nat → Nat → Nat → Nat
  | 0, _, _, _, acc => acc
  | n + 1, t, x, y, acc =>
    let z := (2 * x + 3 * y) % 5
    kWalk s n (t + 1) y z (acc ||| kMoved (s >>> (64 * x + 320 * y) % 2 ^ 64) ((t + 1) * (t + 2) / 2) y z)

/-- Rho and pi. The lane at (0, 0) stays. -/
def kRhoPi (s : Nat) : Nat := kWalk s 24 0 1 0 (s % 2 ^ 64)

/-- Chi of one row. -/
def kChiRow (row : Nat) : Nat := row ^^^ ((2 ^ 320 - 1 - kTurn row 1) &&& kTurn row 2)

/-- Chi. -/
def kChi (s : Nat) : Nat :=
  kChiRow (kRow s 0) ||| kChiRow (kRow s 1) <<< 320 ||| kChiRow (kRow s 2) <<< 640 ||| kChiRow (kRow s 3) <<< 960 |||
    kChiRow (kRow s 4) <<< 1280

/-- The register that feeds iota, one step on: x^8 + x^6 + x^5 + x^4 + 1. -/
def kFeed (r : Nat) : Nat := if r < 128 then 2 * r else (2 * r) ^^^ 0x171

/-- The round constant from bit 2^j - 1 on, and the register after it: `n` bits are still to come. -/
def kIota : Nat → Nat → Nat → Nat → Nat × Nat
  | 0, _, r, c => (c, r)
  | n + 1, j, r, c => kIota n (j + 1) (kFeed r) (c + r % 2 * 2 ^ (2 ^ j - 1))

/-- `n` rounds, the feed register standing at `r`. -/
def kRounds : Nat → Nat → Nat → Nat
  | 0, _, s => s
  | n + 1, r, s =>
    let k := kIota 7 0 r 0
    kRounds n k.2 (kChi (kRhoPi (kTheta s)) ^^^ k.1)

/-- Keccak-f of 24 rounds. -/
def keccak (s : Nat) : Nat := kRounds 24 1 s

/-- `n` blocks of `rate` bytes taken up. -/
def spongeIn (rate : Nat) : Nat → Nat → List Byte → Nat
  | 0, s, _ => s
  | n + 1, s, bs => spongeIn rate n (keccak (s ^^^ natOfBytes (bs.take rate))) (bs.drop rate)

/-- `n` blocks of `rate` bytes given out. -/
def spongeOut (rate : Nat) : Nat → Nat → List Byte
  | 0, _ => []
  | n + 1, s => bytesOfNat rate s ++ spongeOut rate n (keccak s)

/-- The message filled to whole blocks: the domain bits with the first one of the padding, and its last. -/
def spongePad (rate domain : Nat) (bs : List Byte) : List Byte :=
  let gap := rate - bs.length % rate
  bs ++ bytesOfNat gap (domain + 128 * 256 ^ (gap - 1))

/-- `len` bytes of a sponge of `rate` bytes over a message. -/
def sponge (rate domain len : Nat) (bs : List Byte) : List Byte :=
  let m := spongePad rate domain bs
  (spongeOut rate ((len + rate - 1) / rate) (spongeIn rate (m.length / rate) 0 m)).take len

/-- SHA3-256. -/
def sha3 (bs : List Byte) : List Byte := sponge 136 0x06 32 bs

/-- SHAKE128 and SHAKE256 with an output of `len` bytes. -/
def shake128 (len : Nat) (bs : List Byte) : List Byte := sponge 168 0x1F len bs
def shake256 (len : Nat) (bs : List Byte) : List Byte := sponge 136 0x1F len bs

end Sys2Proof.Machine
end

