-- ==== Sys2Proof/Machine/Ops.lean ====
section
/-! DEFINITION. The named operations every meaning is built from: memories, registers, the per-unit maps, faults and
events. -/

namespace Sys2Proof.Machine

/- Memories (R206). -/

/-- First granule of the staging area (R190). -/
def stagingGranule (p : Part) : Nat := if p.dram64 then 960 else 448

/-- What a byte of the internal map reads as while nothing has been written there: the ownership table's reset values
(R189), the generation bits of the data stores 1 (R47; log 8), every other byte 0 (R185; log 8). -/
def memDefault (p : Part) (a : Nat) : Byte :=
  if 0x15_0800_0000 ≤ a ∧ a < 0x15_0800_0400 then
    if stagingGranule p ≤ a - 0x15_0800_0000 then 0x11 else 0x1F
  else if (0x12_0100_0000 ≤ a ∧ a < 0x12_0104_0000) ∨ (0x12_0210_0000 ≤ a ∧ a < 0x12_0210_2000) then 0xFF
  else 0

/-- One byte of the internal map. -/
def State.byte (s : State) (a : Nat) : Byte := mapGet (memDefault s.part) s.mem a

/-- `n` bytes of the internal map. -/
def State.bytes (s : State) (a n : Nat) : List Byte := bytesAt (memDefault s.part) s.mem a n

/-- The little-endian number that `n` bytes of the internal map spell (R8). -/
def State.num (s : State) (a n : Nat) : Nat := natOfBytes (s.bytes a n)

/-- A 64-bit word of the internal map. -/
def State.word (s : State) (a : Nat) : W64 := BitVec.ofNat 64 (s.num a 8)

/-- Bytes written to the internal map, with no other effect. -/
def State.putMem (s : State) (a : Nat) (bs : List Byte) : State :=
  { s with mem := putBytes (memDefault s.part) s.mem a bs }

/-- A 64-bit word written to the internal map. -/
def State.putWord (s : State) (a : Nat) (w : W64) : State := s.putMem a (bytesOfNat 8 w.toNat)

/-- Every byte from `a` to `a + n - 1` back at its default. -/
def State.clearMem (s : State) (a n : Nat) : State :=
  { s with mem := mapDropIf (fun k => decide (a ≤ k ∧ k < a + n)) s.mem }

/-- The base of the word with check bits of its own that holds a byte: the entry of a schedule memory (R33), else a
64-bit word. -/
def eccBase (a : Nat) : Nat :=
  if 0x11_0000_0000 ≤ a ∧ a < 0x11_8000_0000 then a / 4 * 4
  else if 0x11_8000_0000 ≤ a ∧ a < 0x11_A000_0000 then a / 2 * 2
  else if 0x11_A000_0000 ≤ a ∧ a < 0x11_C000_0000 then a / 32 * 32
  else if 0x11_C000_0000 ≤ a ∧ a < 0x11_E000_0000 then a
  else if 0x11_E000_0000 ≤ a ∧ a < 0x11_E400_0000 then a / 4 * 4
  else if 0x11_E400_0000 ≤ a ∧ a < 0x11_E800_0000 then a
  else if 0x11_E800_0000 ≤ a ∧ a < 0x11_E900_0000 then a / 2 * 2
  else if 0x11_E900_0000 ≤ a ∧ a < 0x11_EA00_0000 then a / 32 * 32
  else a / 8 * 8

/-- The first of the eight data-store words whose GB or DV bits a byte holds (R61). -/
def dsBitsOf (a : Nat) : Option Nat :=
  if 0x12_0100_0000 ≤ a ∧ a < 0x12_0104_0000 then some (0x12_0000_0000 + 64 * (a - 0x12_0100_0000))
  else if 0x12_0180_0000 ≤ a ∧ a < 0x12_0184_0000 then some (0x12_0000_0000 + 64 * (a - 0x12_0180_0000))
  else if 0x12_0210_0000 ≤ a ∧ a < 0x12_0210_2000 then some (0x12_0200_0000 + 64 * (a - 0x12_0210_0000))
  else if 0x12_0218_0000 ≤ a ∧ a < 0x12_0218_2000 then some (0x12_0200_0000 + 64 * (a - 0x12_0218_0000))
  else none

/-- The words with check bits that hold a byte. GB and DV belong to their data-store word, which its 64 data bits name
(R33). -/
def eccKeys (a : Nat) : List Nat :=
  match dsBitsOf a with
  | some b => (List.range 8).map fun j => b + 8 * j
  | none => [eccBase a]

/-- Error state of the word that holds a byte: 0 none, 1 correctable, 2 uncorrectable. -/
def State.eccOf (s : State) (a : Nat) : Nat := (eccKeys a).foldl (fun e k => max e (mapGet (fun _ => 0) s.ecc k)) 0

/-- The error state of the word that holds a byte, set. -/
def State.setEcc (s : State) (a v : Nat) : State :=
  { s with ecc := (eccKeys a).foldl (fun m k => mapSet (fun _ => 0) m k v) s.ecc }

/-- The check bits of every word touched by a write of `n` bytes made good, or uncorrectable for poisoned data (R222). A
write of GB or DV bits alone rewrites no data-store word: an error of the word stays (R64; log 94). -/
def eccWrite (m : Map Nat) (a n : Nat) (poison : Bool) : Map Nat :=
  (List.range n).foldl (fun m i =>
    match dsBitsOf (a + i), poison with
    | some _, false => m
    | _, _ => (eccKeys (a + i)).foldl (fun m k =>
        if mapGet (fun _ => 0) m k = b2n poison * 2 then m else mapSet (fun _ => 0) m k (b2n poison * 2)) m) m

/-- A write of memory with new check bits. -/
def State.store (s : State) (a : Nat) (bs : List Byte) (poison : Bool := false) : State :=
  { s.putMem a bs with ecc := eccWrite s.ecc a bs.length poison }

/-- The 4 KiB pages of DRAM that a write of `n` bytes touches, marked while a resync copies (R359). -/
def State.markPages (s : State) (a n : Nat) : State :=
  if s.ketch.marking ∧ a < 0x10_0000_0000 then
    let pages := (List.range ((a + n + 4095) / 4096 - a / 4096)).map fun i => a / 4096 + i
    { s with ketch := { s.ketch with marks := s.ketch.marks ++ pages.filter fun p => !s.ketch.marks.contains p } }
  else s

/-- The worst error state among the words that hold `n` bytes. -/
def State.eccMax (s : State) (a n : Nat) : Nat := (List.range n).foldl (fun m i => max m (s.eccOf (a + i))) 0

/- Registers (R9, R208). -/

/-- The value a register holds. -/
def State.reg (s : State) (a : Nat) : W64 := mapGet regReset s.regs a

/-- A register set by the hardware or the firmware. -/
def State.setReg (s : State) (a : Nat) (v : W64) : State := { s with regs := mapSet regReset s.regs a v }

/-- A field of a register, as a number. -/
def State.fldOf (s : State) (a lo w : Nat) : Nat := fld (s.reg a) lo w

/-- One bit of a register. -/
def State.bitOf (s : State) (a i : Nat) : Bool := bit (s.reg a) i

/-- A field of a register set. -/
def State.setFld (s : State) (a lo w x : Nat) : State := s.setReg a (putFld (s.reg a) lo w x)

/-- One bit of a register set or cleared. -/
def State.setBit (s : State) (a i : Nat) (b : Bool) : State := s.setFld a i 1 (b2n b)

/-- A saturating counter field advanced by `k`. -/
def State.count (s : State) (a lo w : Nat) (k : Nat := 1) : State := s.setFld a lo w (satAdd w (s.fldOf a lo w) k)

/-- Every register of a reset domain back at its reset value (R11). -/
def State.resetRegs (s : State) (p : Domain → Bool) : State :=
  { s with regs := mapDropIf (fun a => p (regDomain a)) s.regs }

/- The per-unit maps. -/

def State.clu (s : State) (k : Nat) : Clu := mapGet (fun _ => {}) s.clus k
def State.setClu (s : State) (k : Nat) (v : Clu) : State := { s with clus := mapSet (fun _ => {}) s.clus k v }
def State.rgn (s : State) (m : Nat) : Rgn := mapGet (fun _ => {}) s.rgns m
def State.setRgn (s : State) (m : Nat) (v : Rgn) : State := { s with rgns := mapSet (fun _ => {}) s.rgns m v }
def State.sw (s : State) (t : Nat) : Sw := mapGet (fun _ => {}) s.sws t
def State.setSw (s : State) (t : Nat) (v : Sw) : State := { s with sws := mapSet (fun _ => {}) s.sws t v }
def State.br (s : State) (m : Nat) : Br := mapGet (fun _ => {}) s.brs m
def State.setBr (s : State) (m : Nat) (v : Br) : State := { s with brs := mapSet (fun _ => {}) s.brs m v }
def State.bank (s : State) (k : Nat) : Bank := mapGet (fun _ => {}) s.banks k
def State.setBank (s : State) (k : Nat) (v : Bank) : State := { s with banks := mapSet (fun _ => {}) s.banks k v }
def State.chan (s : State) (g : Nat) : Chan := mapGet (fun _ => {}) s.chans g
def State.setChan (s : State) (g : Nat) (v : Chan) : State := { s with chans := mapSet (fun _ => {}) s.chans g v }

def State.arr (s : State) (t : Nat) : Arr := mapGet (fun _ => {}) s.arrs t
def State.setArr (s : State) (t : Nat) (v : Arr) : State := { s with arrs := mapSet (fun _ => {}) s.arrs t v }

def State.cap (s : State) (t : Nat) : Cap := mapGet (fun _ => {}) s.caps t
def State.setCap (s : State) (t : Nat) (v : Cap) : State := { s with caps := mapSet (fun _ => {}) s.caps t v }

def State.link (s : State) (n : Nat) : Link := mapGet (fun _ => {}) s.links n
def State.setLink (s : State) (n : Nat) (v : Link) : State := { s with links := mapSet (fun _ => {}) s.links n v }

/-- A change applied to a state in turn for each element of a list. -/
def State.forEach {α : Type} (s : State) (l : List α) (f : State → α → State) : State := l.foldl f s

/- Regions. -/

/-- STATE of a region in CFG_RGN (R307): 0 UNCONFIGURED, 1 COMMITTED, 2 RUNNING, 3 FENCED, 4 LOADING, 5 FAULTED. -/
def State.rgnState (s : State) (m : Nat) : Nat := s.fldOf (aCfgRgn m) 0 3

/-- The fence of region `m` is in force (R234), as for every region that has not been released (R291). -/
def State.fenced (s : State) (m : Nat) : Bool := s.bitOf (aNocFence m) 0 || !(s.rgn m).released

/-- The region is halted by the debug port (R436, R437). -/
def State.halted (s : State) (m : Nat) : Bool := s.bitOf (aDbgHalt m) 4

/-- The fence is complete: both drains have ended (R132, R307). -/
def State.fenceDone (s : State) (m : Nat) : Bool := s.bitOf (aCfgRgn m) 6

/-- JOIN_ECY of a region (R301). -/
def State.joinEcy (s : State) (m : Nat) : Nat := s.fldOf (aCfgRgn m) 16 48

/- Cluster names and spares (R60). -/

/-- The spare that replaces cluster `c` of tile `t`: the lowest-numbered valid one. -/
def State.spareOf (s : State) (t c : Nat) : Option Nat :=
  (List.range 4).find? fun i => s.bitOf (aCluRemap t i) 0 && s.fldOf (aCluRemap t i) 1 7 == c

/-- The physical cluster a name reaches: 128 + s for a replaced cluster. -/
def State.phys (s : State) (t c : Nat) : Nat :=
  if c < 128 then match s.spareOf t c with
    | some i => 128 + i
    | none => c
  else c

/-- The name under which a physical cluster runs: the cluster a spare replaces, or its own. -/
def State.nameOf (s : State) (t pc : Nat) : Nat :=
  if pc < 128 then pc
  else if s.bitOf (aCluRemap t (pc - 128)) 0 then
    let c := s.fldOf (aCluRemap t (pc - 128)) 1 7
    if s.spareOf t c = some (pc - 128) then c else pc
  else pc

/-- Free spares of a tile (R124, R126). -/
def State.sparesFree (s : State) (t : Nat) : Nat :=
  ((List.range 4).filter fun i => !s.bitOf (aCluRemap t i) 0 && !s.bitOf (aCluRemap t i) 8).length

/-- MAP_SEQ follows a change of SPARES_FREE of tile `t`, which was `before`; it stays 0 on a device that has never lost a
resource (R126; log 96). -/
def State.mapNote (s : State) (t before : Nat) : State :=
  if s.sparesFree t = before ∨ s.health.lost.isEmpty then s
  else { s with health := { s.health with mapSeq := s.health.mapSeq + 1 } }

/-- Key of a physical cluster in `State.clus`. -/
def cluKey (t pc : Nat) : Nat := 132 * t + pc

/-- Fenced, or halted at an ecycle boundary by the debug port: what R62, R66 and R148 ask of a write. A halt while
stepping by steps may stand inside a period. -/
def State.heldRegion (s : State) (m : Nat) : Bool :=
  s.fenced m || (s.halted m && ((s.rgn m).usage.clusters.all fun tc => s.fldOf (aCluStatus tc.1 (s.phys tc.1 tc.2)) 0 12 == 0))

/- Faults, events and interrupts. -/

/-- The state with a draw of the free counter used up (log 7). -/
def State.draw (s : State) : State := { s with free := s.free + 1 }

/-- Posts an MSI-X vector, or holds it until the host enables MSI-X again (R335, R396). -/
def State.msix (s : State) (v : Nat) : State :=
  if s.host.msixOn then { s with events := { s.events with msix := s.events.msix ++ [v] } }
  else { s with events := { s.events with msixHeld := s.events.msixHeld ++ [v] } }

/-- Raises a fault; FAULT_CONTAINMENT takes it up (R129, R130). -/
def State.raise (s : State) (code region tile cluster : Nat) (detail : W64) (internal : Bool) : State :=
  { s with raised := s.raised ++ [{ code, region, tile, cluster, ecycle := s.fldOf (aRgnEcycle region) 0 48, detail,
                                    time := s.tb, internal }] }

end Sys2Proof.Machine
end

