-- ==== Sys2Proof/Machine/Operands.lean ====
section
/-! DEFINITION. What a cluster's step takes its operands from: the addresses of its memories (R61), the fields of BP
instructions and control words (R34, R39), the ecycle a group belongs to (R41), and the data store (R42 to R44). -/

namespace Sys2Proof.Machine

/- Addresses (R61); `pc` is a physical cluster, 128 + s for spare Ss. -/

/-- Global index of a physical cluster among the clusters, or among the spares. -/
def cluIdx (t pc : Nat) : Nat := if pc < 128 then 128 * t + pc else 4 * t + (pc - 128)

def aInsLo (t pc b e : Nat) : Nat :=
  (if pc < 128 then 0x11_0000_0000 else 0x11_E000_0000) + 4096 * (64 * cluIdx t pc + b) + 4 * e
def aInsHi (t pc b e : Nat) : Nat :=
  (if pc < 128 then 0x11_C000_0000 else 0x11_E400_0000) + 1024 * (64 * cluIdx t pc + b) + e
def aFt (t pc b f : Nat) : Nat :=
  (if pc < 128 then 0x11_8000_0000 else 0x11_E800_0000) + 512 * (64 * cluIdx t pc + b) + 2 * f
def aCtl (t pc e : Nat) : Nat :=
  (if pc < 128 then 0x11_A000_0000 else 0x11_E900_0000) + 32768 * cluIdx t pc + 32 * e
def aDs (t pc bank w : Nat) : Nat :=
  (if pc < 128 then 0x12_0000_0000 else 0x12_0200_0000) + 2048 * cluIdx t pc + 1024 * bank + 8 * w
def aDsGen (t pc : Nat) : Nat := (if pc < 128 then 0x12_0100_0000 else 0x12_0210_0000) + 32 * cluIdx t pc
def aDsVal (t pc : Nat) : Nat := (if pc < 128 then 0x12_0180_0000 else 0x12_0218_0000) + 32 * cluIdx t pc

/- The data store. -/

/-- Generation of an ecycle in the data store (R42). -/
def dsGen (k : Nat) : Bool := decide (k / 2 % 2 = 1)

/-- Generation of an ecycle in latches and on links (R49, R88). -/
def parity (k : Nat) : Bool := decide (k % 2 = 1)

/-- Bit `i` of a bit array in memory. -/
def State.memBit (s : State) (base i : Nat) : Bool := (s.byte (base + i / 8)).getLsbD (i % 8)

/-- Bit `i` of a bit array in memory, set. -/
def State.putMemBit (s : State) (base i : Nat) (v : Bool) : State :=
  let b := s.byte (base + i / 8)
  let m : Byte := 1#8 <<< (i % 8)
  s.putMem (base + i / 8) [if v then b ||| m else b &&& ~~~m]

/-- Valid bit DV of a data-store word. -/
def State.dsValid (s : State) (t pc bank w : Nat) : Bool := s.memBit (aDsVal t pc) (128 * bank + w)

/-- Generation bit GB of a data-store word. -/
def State.dsGb (s : State) (t pc bank w : Nat) : Bool := s.memBit (aDsGen t pc) (128 * bank + w)

/-- A read on behalf of ecycle `k` is satisfied (R42). -/
def State.dsReady (s : State) (t pc w k : Nat) : Bool :=
  s.dsValid t pc (k % 2) w && s.dsGb t pc (k % 2) w == dsGen k

/-- A masked write of a data-store word; with `last` its generation bit becomes `gb` and its valid bit 1 (R44). A word that
holds an error counts as rewritten whatever the mask: the spec does not say whether the cluster meets the error of a word
that it writes in part (DESIGN CHOICE, log 94). -/
def State.dsWrite (s : State) (t pc bank w : Nat) (mask src : W64) (last gb : Bool) : State :=
  let old := s.word (aDs t pc bank w)
  let s1 := s.store (aDs t pc bank w) (bytesOfNat 8 ((old &&& ~~~mask) ||| (src &&& mask)).toNat)
  if last then (s1.putMemBit (aDsGen t pc) (128 * bank + w) gb).putMemBit (aDsVal t pc) (128 * bank + w) true else s1

/- The schedule of a region (R65, R66). -/

structure Sched where
  len : Nat
  win : Nat
  /-- Steps of one period. -/
  per : Nat
  depth : Nat
  rt : Bool
  ceClose : Nat
  deriving DecidableEq, Repr

/-- RGN_SCHED of region `m`, read. -/
def State.sched (s : State) (m : Nat) : Sched :=
  let r := s.reg (aRgnSched m)
  let l := 8 * (fld r 0 9 + 1)
  let w := 8 * fld r 9 7
  { len := l, win := w, per := l - w, depth := fld r 16 2, rt := bit r 18, ceClose := fld r 20 12 }

/-- Steps per control word, and spacing of active BPs, of a depth mode (R58). -/
def Sched.div (d : Sched) : Nat := 2 ^ d.depth

/-- PACE of region `m` (R81). -/
def State.pace (s : State) (m : Nat) : Nat := max (8 * (s.fldOf (aRgnRt m) 0 9 + 1)) (s.sched m).per

/-- LEAD of region `m` (R82). -/
def State.leadOf (s : State) (m : Nat) : Nat := if s.bitOf (aRgnRt m) 9 then 2 else 1

/-- Period and physical step in which logical step `j` of ecycle `k` executes (R65). -/
def Sched.place (d : Sched) (k j : Nat) : Nat × Nat := if j < d.per then (k, j) else (k + 1, j - d.per)

/-- The ecycle a control-word group belongs to at step `p` of period `c`; none where it is void (R41). -/
def Sched.attrib (d : Sched) (p c : Nat) (ecy : Bool) : Option Nat :=
  if p < d.win && ecy then (if c = 0 then none else some (c - 1)) else some c

/-- The logical step a group of step `p` stands at (R65). -/
def Sched.logical (d : Sched) (p : Nat) (ecy : Bool) : Nat := if p < d.win && ecy then p + d.per else p

/- Control words (R39). -/

abbrev Cw := BitVec 256

/-- Field of a control word, as a number. -/
def Cw.f (w : Cw) (lo n : Nat) : Nat := (w.extractLsb' lo n).toNat

/-- Bit of a control word. -/
def Cw.b (w : Cw) (i : Nat) : Bool := w.getLsbD i

/-- The control word of entry `e` of a cluster. -/
def State.ctl (s : State) (t pc e : Nat) : Cw := BitVec.ofNat 256 (s.num (aCtl t pc e) 32)

/-- One DS write group (R39): A at bit 106, B at bit 181. -/
structure WGroup where
  en : Bool
  next : Bool
  word : Nat
  high : Bool
  last : Bool
  mask : W64
  deriving DecidableEq, Repr

/-- The write group at a bit position of a control word. -/
def Cw.wgroup (w : Cw) (lo : Nat) : WGroup :=
  { en := w.b lo, next := w.b (lo + 1), word := w.f (lo + 2) 7, high := w.b (lo + 9), last := w.b (lo + 10),
    mask := w.extractLsb' (lo + 11) 64 }

/- BP instructions (R34). -/

structure Bpi where
  opc : Nat
  fidx : Nat
  sd : Nat
  sc : Nat
  sb : Nat
  sa : Nat
  deriving DecidableEq, Repr

/-- The fields of a 40-bit instruction. -/
def bpiOf (n : Nat) : Bpi :=
  { opc := n / 2 ^ 36 % 16, fidx := n / 2 ^ 28 % 256, sd := n / 2 ^ 21 % 128, sc := n / 2 ^ 14 % 128,
    sb := n / 2 ^ 7 % 128, sa := n % 128 }

/-- Entry and BP that active BP `b` executes from at step `p` (R58). -/
def bpSource (p b : Nat) : Nat × Nat := (p % 1024, b + p / 1024)

/-- The instruction of active BP `b` at step `p`. -/
def State.bpi (s : State) (t pc p b : Nat) : Bpi :=
  let (e, q) := bpSource p b
  bpiOf (s.num (aInsLo t pc q e) 4 + 2 ^ 32 * s.num (aInsHi t pc q e) 1)

end Sys2Proof.Machine
end

