-- ==== Sys2Proof/Machine/Bp.lean ====
section
/-! DEFINITION. The Boolean processors: truth tables, opcodes and wide functions (R35 to R37, R57). -/

namespace Sys2Proof.Machine

/-- The operand bus of a step: BP results, then the two imports (R37). -/
abbrev Bus := BitVec 128

/-- The bus of a step. -/
def busOf (results : W64) (imp0 imp1 : W32) : Bus := imp1 ++ imp0 ++ results

/-- Index into a truth table from four inputs (R36). -/
def lutIndex (a b c d : Bool) : Nat := b2n a + 2 * b2n b + 4 * b2n c + 8 * b2n d

/-- A truth table's value (R36). -/
def lut (ft : Nat) (a b c d : Bool) : Bool := ft.testBit (lutIndex a b c d)

/-- The truth table a BP's instruction names at a step (R58). -/
def State.ft (s : State) (t pc p b : Nat) (i : Bpi) : Nat := s.num (aFt t pc (bpSource p b).2 i.fidx) 2

/-- The value an instruction computes alone, with the BP's own present result (R35). Members of a wide group and
unaligned ones alike compute LUT here; the wide form is `wideResult`. -/
def bpValue (ft : Nat) (i : Bpi) (bus : Bus) (own : Bool) : Bool :=
  let x := fun n => bus.getLsbD n
  match i.opc with
  | 1 | 3 | 4 | 5 => lut ft (x i.sa) (x i.sb) (x i.sc) (x i.sd)
  | 2 => own
  | 6 => if x i.sd then lut ft (x i.sa) (x i.sb) (x i.sc) false else own
  | 7 => x i.sa
  | _ => false

/-- A member's own result in a wide group: LUT with input 3 forced to 0 (R57). -/
def wideMember (ft : Nat) (i : Bpi) (bus : Bus) : Bool :=
  lut ft (bus.getLsbD i.sa) (bus.getLsbD i.sb) (bus.getLsbD i.sc) false

/-- One multiplexer level: each pair of values reduced by a select (R57). -/
def muxLevel (sel : Bool) : List Bool → List Bool
  | a :: b :: rest => (if sel then b else a) :: muxLevel sel rest
  | l => l

/-- The group result: the members' values through one level per select (R57). -/
def muxTree : List Bool → List Bool → Bool
  | [], v => v.headD false
  | sel :: sels, v => muxTree sels (muxLevel sel v)

/-- Size of the wide group an opcode belongs to, and its number of levels. -/
def wideSize (opc : Nat) : Option (Nat × Nat) :=
  match opc with
  | 3 => some (2, 1)
  | 4 => some (4, 2)
  | 5 => some (8, 3)
  | _ => none

/-- The result of active BP number `j` of a cluster, from the instructions and tables of the active BPs in order (R35,
R57): a member of an aligned group of equal W opcodes gives its own value, the last one the group's. -/
def bpResult (ins : List (Bpi × Nat)) (bus : Bus) (own : Bool) (j : Nat) : Bool :=
  match ins[j]? with
  | none => false
  | some (i, ft) =>
    match wideSize i.opc with
    | none => bpValue ft i bus own
    | some (n, levels) =>
      let base := j / n * n
      let group := (ins.drop base).take n
      if group.length = n && group.all (fun g => g.1.opc == i.opc) then
        if j = base + n - 1 then
          muxTree ((group.take levels).map fun g => bus.getLsbD g.1.sd) (group.map fun g => wideMember g.2 g.1 bus)
        else wideMember ft i bus
      else bpValue ft i bus own

/-- Numbers of the active BPs of a depth mode, in order (R58). -/
def activeBps (div : Nat) : List Nat := (List.range (64 / div)).map fun j => j * div

/-- The 64 results of a step, an inactive BP contributing 0 (R37). -/
def bpResults (ins : List (Bpi × Nat)) (div : Nat) (bus : Bus) (old : W64) : W64 :=
  (List.range (64 / div)).foldl
    (fun r j => if bpResult ins bus (old.getLsbD (j * div)) j then r ||| (1#64 <<< (j * div)) else r) 0

/-- The instructions and tables of the active BPs of a cluster at step `p`. -/
def State.bpIns (s : State) (t pc p div : Nat) : List (Bpi × Nat) :=
  (activeBps div).map fun b => let i := s.bpi t pc p b; (i, s.ft t pc p b i)

end Sys2Proof.Machine
end

