-- ==== Sys2Proof/Machine/Flags.lean ====
section
/-! DEFINITION. Status bits, counters and event records that several meanings set alike: holds of a cluster (R63, R75),
corrected and uncorrectable errors (R64), the slip of a period (R83, R86), packet-network errors (R237), the event
queue (R404). -/

namespace Sys2Proof.Machine

/- Events. -/

/-- Events that may take one of the last 64 places of the queue (R404). -/
def urgentEvent (code : Nat) : Bool := code == 0x1 || code == 0xF || code == 0x10

/-- Queues an event record, or discards and counts it; signals vector 16 when it enters an empty queue (R404). -/
def State.event (s : State) (code region : Nat) (data : List Byte) : State :=
  let e := s.events
  let seq := (e.seq + 1) % 2 ^ 32
  if e.queue.length < (if urgentEvent code then 1024 else 960) then
    let s1 := { s with events := { e with seq := seq, queue := e.queue ++
      [{ code, region, seq, time := s.tb, data := (data ++ zeros 32).take 32 }] } }
    if e.queue.isEmpty then s1.msix 16 else s1
  else { s with events := { e with seq := seq, lost := e.lost + 1 } }

/-- The 48 bytes of an event record (R404). -/
def eventBytes (e : Event) : List Byte :=
  bytesOfNat 2 e.code ++ bytesOfNat 1 e.region ++ [0] ++ bytesOfNat 4 e.seq ++ bytesOfNat 8 e.time ++ e.data

/- Clusters. -/

/-- A cluster holds in this cycle for cause `n` (R63, R75): HELD sets, HOLD_SRC takes the cause, HOLD_CYCLES counts,
DS_WAIT with it on a data-store read. -/
def State.hold (s : State) (t pc n : Nat) : State :=
  let s1 := (s.setReg (aCluStatus t pc) (putFld (putFld (s.reg (aCluStatus t pc)) 12 1 1) 13 4 n)).count
    (aCluCnt t pc) 0 32
  if n = 1 ∨ n = 2 then s1.count (aCluCnt t pc) 32 16
  else if n = 10 then s1.count (aCluCnt t pc) 48 16
  else s1

/-- A memory of a cluster that a step reads: its code in CE_MEM and UE_MEM, BP, entry, address and length (R63). -/
structure Touched where
  mem : Nat
  bp : Nat
  entry : Nat
  addr : Nat
  len : Nat
  deriving DecidableEq, Repr

/-- Corrected errors of a step counted in CLU_ERR, the last one named (R63, R64). -/
def State.corrected (s : State) (t pc : Nat) (l : List Touched) : State :=
  s.forEach l fun s x =>
    if s.eccMax x.addr x.len = 1 then
      let s1 := s.count (aCluErr t pc) 0 16
      s1.setReg (aCluErr t pc) (putFld (putFld (putFld (s1.reg (aCluErr t pc)) 32 2 x.mem) 34 6 x.bp) 40 10 x.entry)
    else s

/-- An uncorrectable error stops a cluster at its step: ECC_UE and UE_MEM set, and the fault is raised (R64, R129). -/
def State.eccStop (s : State) (t pc region : Nat) (x : Touched) : State :=
  let s1 := s.setReg (aCluStatus t pc) (putFld (putFld (putFld (s.reg (aCluStatus t pc)) 12 1 1) 18 1 1) 19 2 x.mem)
  let s2 := s1.count (aCluCnt t pc) 0 32
  s2.raise 2 region t (s.nameOf t pc) (BitVec.ofNat 64 (x.mem + 4 * x.bp + 256 * x.entry)) true

/-- Slip of the period that begins now in a real-time region: SLIP_NOW, SLIP_MAX, LATE_ECYCLES, and SLIP_EVT with its
event when the limit is exceeded (R83, R86). -/
def State.slip (s : State) (m c : Nat) : State :=
  let slip := s.tb - ((s.rgn m).s0 + c * s.pace m)
  let now := min slip 0xFF_FFFF
  let r := s.reg (aRgnSlip m)
  let s1 := s.setReg (aRgnSlip m) (putFld (putFld r 0 24 now) 24 24 (max now (fld r 24 24)))
  let s2 := if slip > 0 then s1.count (aRgnCnt m) 0 32 else s1
  if now > s.fldOf (aRgnSlipCfg m) 0 24 then
    let s3 := s2.setBit (aRgnSlip m) 48 true
    if bit r 48 then s3
    else s3.event 4 m (bytesOfNat 4 now ++ zeros 4 ++ bytesOfNat 8 (s.fldOf (aRgnEcycle m) 0 48))
  else s2

/- Packet network. -/

/-- NOC_ERR of an outcome, with the node that answered (R223, R237). -/
def State.nocErrAt (s : State) (addr status origin node : Nat) : State :=
  s.setReg aNocErr (BitVec.ofNat 64 (addr % 2 ^ 48 + 2 ^ 48 * status + 2 ^ 51 * origin + 2 ^ 56 * node))

/-- A DECODE, DENIED or MALFORMED outcome of an endpoint recorded in NOC_ERR, and in ERR_RSP of a tile's router (R223, R237). -/
def State.nocErr (s : State) (addr status origin node : Nat) : State :=
  let s1 := s.nocErrAt addr status origin node
  if node < 64 then s1.count (aNocRtr node) 32 16 else s1

/-- A request answered RSP_FENCED at a tile (R237). -/
def State.fencedRsp (s : State) (node : Nat) : State := if node < 64 then s.count (aNocRtr node) 0 16 else s

end Sys2Proof.Machine
end

