-- ==== Sys2Proof/Machine/SlotTable.lean ====
section
/-! DEFINITION. The torus of rigging switches and their slot tables (R87 to R93, R105, R309): where an output leads, and
which entries a bundle matches. Outputs 0 to 3 are N, E, S, W, 4 is X, 5 to 12 are the deliveries D0 to D7. -/

namespace Sys2Proof.Machine

/- Geometry of the torus (R87, R19). -/

/-- The tile a quad attaches to (R309). -/
def quadTile (q : Nat) : Nat :=
  [0, 0, 1, 1, 2, 2, 3, 3, 3, 4, 5, 6, 7, 7, 15, 23, 31, 31, 56, 56, 57, 57, 58, 58, 59, 59, 59, 60, 61, 62, 63, 63,
   55, 47, 39, 39].getD q 0

/-- Tile reached by a link output 0 to 3 (R87). -/
def neighbour (t out : Nat) : Nat :=
  let x := t % 8
  let y := t / 8
  match out with
  | 0 => 8 * ((y + 1) % 8) + x
  | 1 => 8 * y + (x + 1) % 8
  | 2 => 8 * ((y + 7) % 8) + x
  | _ => 8 * y + (x + 7) % 8

/-- The input of the neighbour on which a bundle from link output `out` arrives: output E arrives on input W. -/
def farInput (out : Nat) : Nat := (out + 2) % 4

/-- The link of output `out` wraps around (R101). -/
def wraps (t out : Nat) : Bool :=
  match out with
  | 0 => t / 8 == 7
  | 1 => t % 8 == 7
  | 2 => t / 8 == 0
  | 3 => t % 8 == 0
  | _ => false

/-- The link of output `out` is a die crossing (R19). -/
def crossesDie (t out : Nat) : Bool :=
  wraps t out ||
  (match out with
   | 0 => t / 8 == 3
   | 1 => t % 8 == 3
   | 2 => t / 8 == 4
   | 3 => t % 8 == 4
   | _ => false)

/-- The output leaves the tile's region: a face that borders another region, or X (R109). -/
def boundaryOut (t out : Nat) : Bool :=
  out == 4 || (decide (out < 4) && regionOfTile (neighbour t out) != regionOfTile t)

/-- Places of the buffer behind a link output, one class (R100). -/
def linkPlaces (t out : Nat) : Nat := if out = 4 then 192 else if crossesDie t out then 8 else 2

/-- First lanes of the tile's links that enable the RIG class, in order: XQ numbers them (R105). -/
def State.xLinks (s : State) (t : Nat) : List Nat :=
  (s.links.filter fun e => quadTile (e.1 / 4) == t && (match e.2.conf with
    | some r => r.mode == 1 && r.classes / 4 % 2 == 1
    | none => false)).map (·.1)

/- Slot tables (R92, R93). -/

/-- A slot-table entry found in the registers. -/
structure Slot where
  out : Nat
  half : Nat
  slot : Nat
  hi : W64
  deriving DecidableEq, Repr

def Slot.valid (x : Slot) : Bool := bit x.hi 0
def Slot.owner (x : Slot) : Nat := fld x.hi 1 4
def Slot.srcPort (x : Slot) : Nat := fld x.hi 5 8
def Slot.srcSlot (x : Slot) : Nat := fld x.hi 13 10
def Slot.dest (x : Slot) : Nat := fld x.hi 23 8
def Slot.latch (x : Slot) : Bool := bit x.hi 31
def Slot.seq (x : Slot) : Nat := fld x.hi 32 10
def Slot.lastGen (x : Slot) : Bool := bit x.hi 44
def Slot.xq (x : Slot) : Nat := fld x.hi 47 4

/-- The entry with its high half at offset `o` of the tile's slot tables. -/
def slotAt (o : Nat) (hi : W64) : Slot :=
  { out := o / 0x8000, half := o / 0x4000 % 2, slot := o % 0x4000 / 16, hi }

/-- Every valid slot-table entry of tile `t`. -/
def State.slots (s : State) (t : Nat) : List Slot :=
  (s.regs.filterMap fun e =>
    let o := e.1 - (tileBase t + 0x4_0000)
    if tileBase t + 0x4_0000 ≤ e.1 ∧ o < 0x6_8000 ∧ e.1 % 16 = 8 ∧ bit e.2 0 then some (slotAt o e.2) else none)

/-- Key of an entry in the maps of a switch. -/
def slotKey (out half slot : Nat) : Nat := (out * 2 + half) * 1024 + slot

/-- The tile has an X port (R87). -/
def hasX (t : Nat) : Bool := (List.range 36).any fun q => quadTile q == t

/-- Outputs and slots that a bundle on input code `i` with slot `sl` under half `h` leaves by (R89); a tile without an X
port has no X output. An entry reaches a spare by its own name and by that of the cluster it replaces (R60, R93). -/
def State.matches (s : State) (t i h sl : Nat) : List (Nat × Nat) :=
  ((s.slots t).filter fun x => x.half == h && x.srcSlot == sl &&
      (if i < 132 then decide (x.srcPort < 132) && s.phys t x.srcPort == s.phys t i else x.srcPort == i) &&
      (x.out != 4 || hasX t) && (i != 0xF4 || hasX t)).map
    fun x => (x.out, x.slot)

/-- High half of an entry. -/
def State.slotHi (s : State) (t out half slot : Nat) : W64 := s.reg (aSlot t out half slot 1)

/-- The bundle matches no entry: discarded, counted and recorded, with the fault of the owner's link group (R91). -/
def State.noRoute (s : State) (t i h sl owner : Nat) : State :=
  let s1 := s.count (aRigCnt t) 32 16
  let s2 := s1.setReg (aRigErr t) (putFld (putFld (putFld (s1.reg (aRigErr t)) 14 8 i) 22 10 sl) 32 1 h)
  s2.raise 3 owner t (if i < 132 then i else 0xFFFF) (BitVec.ofNat 64 (i + 2 ^ 8 * sl + 2 ^ 18 * h)) false

end Sys2Proof.Machine
end

