-- ==== Sys2Proof/Machine/Cluster.lean ====
section
/-! DEFINITION. A cluster's step (R75): the hold conditions in their order, the control word's groups, and the advance
of the counters; what a region derives from its clusters' positions. -/

namespace Sys2Proof.Machine

/- A region's clusters: those of its committed usage table, at their physical places (R60, R114; log 19). -/

def State.members (s : State) (m : Nat) : List (Nat × Nat) :=
  (s.rgn m).usage.clusters.map fun tc => (tc.1, s.phys tc.1 tc.2)

/-- Current physical step of a cluster. -/
def State.stepOf (s : State) (t pc : Nat) : Nat := s.fldOf (aCluStatus t pc) 0 12

/-- Current period of a cluster. -/
def State.periodOf (s : State) (t pc : Nat) : Nat := (s.clu (cluKey t pc)).period

/-- The cluster stands at or past step `q` of period `c`. -/
def State.reached (s : State) (t pc c q : Nat) : Bool :=
  decide (c < s.periodOf t pc ∨ (s.periodOf t pc = c ∧ q ≤ s.stepOf t pc))

/-- The cluster has completed step `q` of period `c`. -/
def State.passed (s : State) (t pc c q : Nat) : Bool :=
  decide (c < s.periodOf t pc ∨ (s.periodOf t pc = c ∧ q < s.stepOf t pc))

/-- The lowest period that no cluster of the region has begun (R108, R438). -/
def State.unbegun (s : State) (m : Nat) : Nat :=
  (s.members m).foldl (fun x tc => max x (s.periodOf tc.1 tc.2 + b2n (decide (0 < s.stepOf tc.1 tc.2)))) 0

/-- The lowest period in which a cluster of the region stands (R69). -/
def State.slowest (s : State) (m : Nat) : Nat :=
  match s.members m with
  | [] => 0
  | tc :: rest => rest.foldl (fun x tc => min x (s.periodOf tc.1 tc.2)) (s.periodOf tc.1 tc.2)

/-- The highest period in which a cluster of the region stands (R439). -/
def State.fastest (s : State) (m : Nat) : Nat :=
  (s.members m).foldl (fun x tc => max x (s.periodOf tc.1 tc.2)) 0

/-- Every cluster of the region stands at step 0 of period `c` (R68). -/
def State.atBoundary (s : State) (m c : Nat) : Bool :=
  (s.members m).all fun tc => s.stepOf tc.1 tc.2 == 0 && s.periodOf tc.1 tc.2 == c

/-- CEV(k) is valid: every cluster has completed the step that holds CE_CLOSE of ecycle `k` (R70). -/
def State.cevValid (s : State) (m k : Nat) : Bool :=
  let (c, q) := (s.sched m).place k (s.sched m).ceClose
  (s.members m).all fun tc => s.passed tc.1 tc.2 c q

/-- CEV(k) of a region; 0 where no event has been raised (R70, R72). -/
def State.cevWord (s : State) (m k : Nat) : W64 :=
  match (s.rgn m).cev.find? (fun e => e.ecycle == k) with
  | some e => e.word
  | none => 0

/-- A clock event raised: its bit set in the word of its ecycle, which takes over the storage of k mod 4 (R70, R72). -/
def State.raiseClock (s : State) (m k clk : Nat) : State :=
  let r := s.rgn m
  let w := s.cevWord m k ||| (1#64 <<< clk)
  let keep := r.cev.filter fun e => e.ecycle % 4 != k % 4
  s.setRgn m { r with cev := keep ++ [{ ecycle := k, word := w }] }

/-- Whether an image's AT_ECY comparison matches at step 0 of period `c` (R438). -/
def State.atMatch (s : State) (m c : Nat) : Bool :=
  s.bitOf (aDbgAt m) 48 && decide (s.joinEcy m + c = s.fldOf (aDbgAt m) 0 48)

/-- Every enabled stream array of the region has begun period `c` in the sense of R154. -/
def State.arraysBegun (s : State) (m c : Nat) : Bool :=
  (tilesOf m).all fun t => !s.bitOf (aArrCfg t) 0 || decide (c ≤ s.fldOf (aArrFrame t) 0 48)

/-- region_hold of R76, with a half swap that has not yet reached every tile (R108), for a cluster at step `p` of period `c`, with the debug halts of R438 and R439. -/
def State.regionHold (s : State) (m t pc p c : Nat) : Bool :=
  let r := s.rgn m
  let k := cluKey t pc
  (!r.released || s.fenced m || s.halted m || decide (s.rgnState m = 5)) ||
  (r.stepping && s.bitOf (aDbgHalt m) 3 && (s.clu k).stepsLeft == 0) ||
  (p == 0 &&
    ((decide (0 < c) && !(s.arraysBegun m (c - 1) && (s.members m).all fun tc => s.reached tc.1 tc.2 (c - 1) 1)) ||
     ((s.sched m).rt && !r.stepping && decide (s.tb < r.s0 + c * s.pace m)) ||
     (decide (c = s.fldOf (aRgnRig m) 2 48) && decide (s.tb < r.swapTick)) ||
     (match r.haltAt with
      | some b => decide (b ≤ c)
      | none => false) ||
     s.atMatch m c))

/- Stays. -/

/-- The cluster is one of C0 to C7 of its region's home tile, by name (R49). -/
def State.hasBrg (s : State) (t pc : Nat) : Bool :=
  decide (t = homeTile (regionOfTile t)) && decide (s.nameOf t pc < 8)

/-- One import of a control word: source, half and attributed ecycle (R40, R41). -/
structure Import where
  src : Nat
  high : Bool
  k : Option Nat
  deriving DecidableEq, Repr

/-- One DS read port of a control word. -/
structure DsRead where
  en : Bool
  word : Nat
  k : Option Nat
  deriving DecidableEq, Repr

def Cw.imp (w : Cw) (d : Sched) (p c lo : Nat) : Import :=
  { src := w.f lo 4, high := w.b (lo + 4), k := d.attrib p c (w.b (lo + 5)) }

def Cw.rd (w : Cw) (d : Sched) (p c lo : Nat) : DsRead :=
  { en := w.b lo, word := w.f (lo + 1) 7, k := d.attrib p c (w.b (lo + 8)) }

/-- A latch's head is valid with the generation of ecycle `k`. -/
def headReady (l : List LWord) (k : Nat) : Bool :=
  match l with
  | [] => false
  | e :: _ => e.gen == parity k

/-- ready(src, k) of R75. -/
def State.importReady (s : State) (m t pc src k : Nat) : Bool :=
  let u := s.clu (cluKey t pc)
  match src with
  | 4 => headReady u.rx0 k
  | 5 => headReady u.rx1 k
  | 6 => headReady u.mmr k
  | 7 => !s.hasBrg t pc || headReady u.brg k
  | 9 => s.cevValid m k
  | _ => true

/-- HOLD_SRC code of an import source (R63). -/
def importCode (src : Nat) : Nat :=
  match src with
  | 4 => 3
  | 5 => 4
  | 6 => 5
  | 7 => 6
  | _ => 7

/-- The hold of the first import, among those of one source, that is not ready. -/
def State.importHold (s : State) (m t pc : Nat) (is : List Import) (src : Nat) : Option Nat :=
  if is.any fun i => i.src == src && (match i.k with
      | some k => !s.importReady m t pc src k
      | none => false)
  then some (importCode src) else none

/-- A DS read that is enabled, not void and not satisfied. -/
def State.dsHolds (s : State) (t pc : Nat) (r : DsRead) : Bool :=
  r.en && (match r.k with
    | some k => !s.dsReady t pc r.word k
    | none => false)

/-- Words that the bridge link holds in one direction: one per step over its 12 steps (R22; log 20). -/
def bridgeDepth : Nat := 12

/-- Room for a send (R50, R90): the injection buffer is empty, or the bridge link has a place. -/
def State.sendRoom (s : State) (m t pc dest : Nat) : Bool :=
  if dest = 0 then (mapGet (fun _ => []) (s.sw t).inj (s.nameOf t pc)).isEmpty
  else !s.hasBrg t pc || decide ((s.br m).down.length < bridgeDepth)

/-- issue_room of R53: at most 8 accesses outstanding, 4 of them reads. -/
def issueRoom (l : List MmAcc) (write : Bool) : Bool :=
  decide (l.length < 8) && (write || decide ((l.filter fun a => !a.write).length < 4))

/-- The MM_OP of a control word: write or read, and its size; none for no operation (R52). -/
def mmOp (op : Nat) : Option (Bool × Nat) :=
  match op with
  | 1 => some (false, 4)
  | 2 => some (false, 8)
  | 3 => some (true, 4)
  | 4 => some (true, 8)
  | _ => none

/-- The first unmet Stay of a control word, in the order of R75. -/
def State.stay (s : State) (m t pc : Nat) (d : Sched) (w : Cw) (p c : Nat) : Option Nat :=
  let ra := w.rd d p c 0
  let rb := w.rd d p c 9
  let is := [w.imp d p c 18, w.imp d p c 24]
  let txk := d.attrib p c (w.b 38)
  let mmk := d.attrib p c (w.b 47)
  if s.dsHolds t pc ra then some 1
  else if s.dsHolds t pc rb then some 2
  else match [4, 5, 6, 7, 9].findSome? (s.importHold m t pc is) with
  | some n => some n
  | none =>
    if w.b 34 && txk.isSome && !s.sendRoom m t pc (w.f 35 1) then some 8
    else match mmOp (w.f 39 3) with
    | some (wr, _) => if mmk.isSome && !issueRoom (s.clu (cluKey t pc)).mm wr then some 9 else none
    | none => none

/- Performing a step. -/

/-- The word a DS read port delivers: zeros where it is not enabled or void (R40). -/
def State.portWord (s : State) (t pc : Nat) (r : DsRead) : W64 :=
  match r.en, r.k with
  | true, some k => s.word (aDs t pc (k % 2) r.word)
  | _, _ => 0

/-- The head of a latch, or zeros. -/
def headWord (l : List LWord) : W64 :=
  match l with
  | [] => 0
  | e :: _ => e.data

/-- The 32 bits an import delivers (R40, R41); `prev` is what it carried in the previous step. -/
def State.importWord (s : State) (m t pc : Nat) (i : Import) (a b : W64) (prev : W32) : W32 :=
  let u := s.clu (cluKey t pc)
  let half := fun (w : W64) => if i.high then w.extractLsb' 32 32 else w.extractLsb' 0 32
  match i.k with
  | none => 0
  | some k =>
    match i.src with
    | 1 => prev
    | 2 => half a
    | 3 => half b
    | 4 => half (headWord u.rx0)
    | 5 => half (headWord u.rx1)
    | 6 => half (headWord u.mmr)
    | 7 => if s.hasBrg t pc then half (headWord u.brg) else 0
    | 8 => half (BitVec.allOnes 64)
    | 9 => half (s.cevWord m k)
    | _ => 0

/-- The 64-bit source a TX_SRC or MM_DSRC names (R39, R40). -/
def srcWord (code : Nat) (bus : Bus) (a b : W64) : W64 :=
  match code with
  | 0 => bus.extractLsb' 0 64
  | 1 => bus.extractLsb' 64 64
  | 2 => a
  | _ => b

/-- Bank and generation a DS write targets at step `p` of period `c`; none where it is not performed (R43). -/
def Sched.target (d : Sched) (p c : Nat) (next : Bool) : Option (Nat × Bool) :=
  if p < d.win then (if next && c == 0 then none else some (c % 2, dsGen c))
  else if next then some ((c + 1) % 2, dsGen (c + 1))
  else some (c % 2, dsGen c)

/-- A write group that is performed: enabled, with a target, and not to a macro-node word of the array (R43, R48). -/
def State.groupTarget (s : State) (t pc : Nat) (d : Sched) (p c : Nat) (g : WGroup) : Option (Nat × Bool) :=
  if g.en && !(decide (s.nameOf t pc < 16) && decide (124 ≤ g.word)) then d.target p c g.next else none

/-- One write group performed. -/
def State.groupWrite (s : State) (t pc : Nat) (d : Sched) (p c : Nat) (g : WGroup) (bus : Bus) : State :=
  match s.groupTarget t pc d p c g with
  | some (bank, gb) =>
    s.dsWrite t pc bank g.word g.mask (if g.high then bus.extractLsb' 64 64 else bus.extractLsb' 0 64) g.last gb
  | none => s

/-- Both write groups name different words of one bank (R45). -/
def State.parityConflict (s : State) (t pc : Nat) (d : Sched) (p c : Nat) (wa wb : WGroup) : Bool :=
  match s.groupTarget t pc d p c wa, s.groupTarget t pc d p c wb with
  | some (x, _), some (y, _) => x == y && wa.word != wb.word
  | _, _ => false

/-- The half that a send of ecycle `k` carries (R108). -/
def State.sendHalf (s : State) (m k : Nat) : Nat :=
  let act := b2n (s.bitOf (aRgnRig m) 0)
  if s.fldOf (aRgnRig m) 2 48 ≤ k then act else 1 - act

/-- A send on behalf of ecycle `k`, from control-word entry `e` (R50, R90): into the injection buffer or onto the
bridge link; a send that matches no slot entry is discarded as R91 provides. -/
def State.send (s : State) (m t pc dest e k : Nat) (data : W64) : State :=
  if dest = 0 then
    let w := s.sw t
    let c := s.nameOf t pc
    let b : Bundle := { data, gen := parity k, half := s.sendHalf m k, slot := e, vc := 0, owner := m }
    let copies := s.matches t c b.half e
    if copies.isEmpty then s.noRoute t c b.half e m
    else s.setSw t { w with inj := mapSet (fun _ => []) w.inj c [{ b, todo := copies, since := s.tb }] }
  else if s.hasBrg t pc then
    let b := s.br m
    s.setBr m { b with down := b.down ++ [{ gen := parity k, data }] }
  else s

/-- A memory-model window of a cluster (R54). -/
structure Window where
  en : Bool
  wr : Bool
  size : Nat
  base : Nat
  deriving DecidableEq, Repr

def State.window (s : State) (t pc n : Nat) : Window :=
  let r := s.reg (aMmw t pc n)
  { en := bit r 0, wr := bit r 1, size := 2 ^ fld r 2 6, base := fld r 16 42 * 64 }

/-- The access is performed (R55). -/
def Window.allows (w : Window) (off size : Nat) (write : Bool) : Bool :=
  w.en && decide (off * size + size ≤ w.size) && (!write || w.wr)

/-- A memory-model access issued (R52, R53, R55); a DRAM access inside the region's refresh window counts in VIOL
(R122). `j` is the logical step it stands at. -/
def State.issue (s : State) (m t pc : Nat) (win off size k j : Nat) (write : Bool) (data : W64) : State :=
  let w := s.window t pc win
  let u := s.clu (cluKey t pc)
  let ok := w.allows off size write
  let addr := w.base + off * size
  let acc : MmAcc := { write, size, addr, data := if ok then data else 0, gen := parity k, since := s.tb,
                       phase := if ok then .waiting else .refused }
  let s1 := s.setClu (cluKey t pc) { u with mm := u.mm ++ [acc] }
  let s2 := if ok then s1 else s1.count (aCluErr t pc) 16 16
  let st := s.fldOf (aRgnRefwin m) 0 12
  if ok && decide (addr < 0x10_0000_0000) && decide (st ≤ j ∧ j < st + 8 * s.fldOf (aRgnRefwin m) 12 9) then
    s2.count (aRgnRefwin m) 32 16
  else s2

/-- One clock-event slot (R51, R71): raised, or dropped and counted when its logical step is past CE_CLOSE. -/
def State.clockSlot (s : State) (m : Nat) (d : Sched) (w : Cw) (p c lo : Nat) (bus : Bus) : State :=
  match d.attrib p c (w.b (lo + 15)) with
  | some k =>
    if w.b lo && (bus.getLsbD (w.f (lo + 7) 7) != w.b (lo + 14)) then
      if d.ceClose < d.logical p (w.b (lo + 15)) then s.count (aRgnCnt m) 32 16
      else s.raiseClock m k (w.f (lo + 1) 6)
    else s
  | none => s

/-- A latch whose pop bit is set and which a live import selects loses its head (R49). -/
def popLatch (pop : Bool) (is : List Import) (src : Nat) (l : List LWord) : List LWord :=
  if pop && is.any (fun i => i.src == src && i.k.isSome) then l.drop 1 else l

/-- Removes the first access that stands in MMR: its entry has been popped (R53). -/
def popMm (l : List MmAcc) : List MmAcc :=
  match takeFirst (fun a => a.phase == .inMmr) l with
  | some (_, rest) => rest
  | none => l

/-- The pops of a control word. -/
def State.pops (s : State) (t pc : Nat) (w : Cw) (is : List Import) : State :=
  let u := s.clu (cluKey t pc)
  let mmr' := popLatch (w.b 32) is 6 u.mmr
  s.setClu (cluKey t pc) { u with
    rx0 := popLatch (w.b 30) is 4 u.rx0, rx1 := popLatch (w.b 31) is 5 u.rx1, mmr := mmr',
    mm := if mmr'.length < u.mmr.length then popMm u.mm else u.mm,
    brg := if s.hasBrg t pc then popLatch (w.b 33) is 7 u.brg else u.brg }

/-- Everything a step's control word and BPs read, with the address of each (R64). -/
def State.touched (s : State) (t pc p c : Nat) (d : Sched) : List Touched :=
  let div := d.div
  let hasCw := p % div == 0
  let e := p / div
  let w := s.ctl t pc e
  let ctl := if hasCw then [{ mem := 2, bp := 0, entry := e, addr := aCtl t pc e, len := 32 : Touched }] else []
  let ins := (activeBps div).flatMap fun b =>
    let (n, q) := bpSource p b
    let i := s.bpi t pc p b
    [{ mem := 0, bp := q, entry := n, addr := aInsLo t pc q n, len := 4 : Touched },
     { mem := 0, bp := q, entry := n, addr := aInsHi t pc q n, len := 1 }] ++
    (if i.opc == 1 || i.opc == 3 || i.opc == 4 || i.opc == 5 || i.opc == 6 then
      [{ mem := 1, bp := q, entry := i.fidx, addr := aFt t pc q i.fidx, len := 2 : Touched }] else [])
  let ds := if hasCw then ([w.rd d p c 0, w.rd d p c 9].flatMap fun r =>
      match r.en, r.k with
      | true, some k => [{ mem := 3, bp := 0, entry := r.word, addr := aDs t pc (k % 2) r.word, len := 8 : Touched }]
      | _, _ => []) else []
  ctl ++ ins ++ ds

/-- What a performed step has shown to the debug port, the capture unit and the region's counters. -/
structure CluStep where
  m : Nat
  t : Nat
  pc : Nat
  name : Nat
  p : Nat
  c : Nat
  hasCw : Bool
  bus : Bus
  cap : Bool
  deriving DecidableEq, Repr

/-- The counters after a performed step: HELD clears, the step advances, the period with it (R75). -/
def State.advance (s : State) (t pc p c per : Nat) (results : W64) (i0 i1 : W32) : State :=
  let u := s.clu (cluKey t pc)
  let last := p + 1 ≥ per
  let s1 := s.setClu (cluKey t pc) { u with period := if last then c + 1 else c, results, imp0 := i0, imp1 := i1,
                                            stepsLeft := u.stepsLeft - 1 }
  s1.setReg (aCluStatus t pc) (putFld (putFld (s1.reg (aCluStatus t pc)) 0 12 (if last then 0 else p + 1)) 12 1 0)

/-- The control word's effects after evaluation, all from the one bus (R38): writes, send, access, clock events, pops. -/
def State.performCw (s : State) (m t pc : Nat) (d : Sched) (w : Cw) (p c : Nat) (bus : Bus) (a b : W64)
    (is : List Import) : State :=
  let s1 := (s.groupWrite t pc d p c (w.wgroup 106) bus).groupWrite t pc d p c (w.wgroup 181) bus
  let s2 := match w.b 34, d.attrib p c (w.b 38) with
    | true, some k => s1.send m t pc (w.f 35 1) (p / d.div) k (srcWord (w.f 36 2) bus a b)
    | _, _ => s1
  let s3 := match mmOp (w.f 39 3), d.attrib p c (w.b 47) with
    | some (wr, size), some k =>
      s2.issue m t pc (w.f 42 2) (if w.b 44 then bus.extractLsb' 96 32 else bus.extractLsb' 64 32).toNat size k
        (d.logical p (w.b 47)) wr (srcWord (w.f 45 2) bus a b)
    | _, _ => s2
  ((s3.clockSlot m d w p c 48 bus).clockSlot m d w p c 64 bus).pops t pc w is

/-- A cluster's attempt at its current step (R75). Answers the state, and what a performed step has shown. The extra cycle of
two DS writes to one bank is spent before the counters advance (R45). The Stays are judged, from the control word as it is
stored, before the step meets an uncorrectable error: the spec gives no order between the two (DESIGN CHOICE, log 94). -/
def State.attempt (s : State) (m t pc : Nat) : State × Option CluStep :=
  let k := cluKey t pc
  let d := s.sched m
  let p := s.stepOf t pc
  let c := s.periodOf t pc
  let u := s.clu k
  if s.regionHold m t pc p c then (s.hold t pc 11, none)
  else if s.bitOf (aCluStatus t pc) 18 then
    ((s.setBit (aCluStatus t pc) 12 true).count (aCluCnt t pc) 0 32, none)
  else
    let div := d.div
    let hasCw := p % div == 0
    let w := s.ctl t pc (p / div)
    match if hasCw then s.stay m t pc d w p c else none with
    | some n => (s.hold t pc n, none)
    | none =>
      let touched := s.touched t pc p c d
      match touched.find? fun x => s.eccMax x.addr x.len == 2 with
      | some x => (s.eccStop t pc m x, none)
      | none =>
        let s0 := s.corrected t pc touched
        let a := s.portWord t pc (w.rd d p c 0)
        let b := s.portWord t pc (w.rd d p c 9)
        let is := [w.imp d p c 18, w.imp d p c 24]
        let i0 := if hasCw then s.importWord m t pc (w.imp d p c 18) a b u.imp0 else u.imp0
        let i1 := if hasCw then s.importWord m t pc (w.imp d p c 24) a b u.imp1 else u.imp1
        let bus := busOf u.results i0 i1
        let s1 := if hasCw then s0.performCw m t pc d w p c bus a b is else s0
        let s2 := if hasCw && s.parityConflict t pc d p c (w.wgroup 106) (w.wgroup 181) then s1.hold t pc 10 else s1
        (s2.advance t pc p c d.per (bpResults (s.bpIns t pc p div) div bus u.results) i0 i1,
          some { m, t, pc, name := s.nameOf t pc, p, c, hasCw, bus, cap := hasCw && w.b 80 })

end Sys2Proof.Machine
end

