-- ==== Sys2Proof/Machine/Resources.lean ====
section
/-! DEFINITION. The clock that runs without a command, and the two ways a command meets the device: as an activity of the
running part, or as an event that comes from outside whatever state the part is in. -/

namespace Sys2Proof.Machine

/-- TB ticks of one HREFCLK period: 100 MHz against 1.5 GHz or 1.2 GHz (R80, R339). -/
def State.refTicks (s : State) : Nat := if s.part.speed15 then 15 else 12

/-- TB ticks of one microsecond (R80). -/
def State.usTicks (s : State) : Nat := 100 * s.refTicks

/-- Tile of a channel (R186). -/
def channelTile (g : Nat) : Nat :=
  let st := g / 16
  let c := g % 16
  8 * (4 * (st / 2) + c / 4) + 4 * (st % 2) + c % 4

/-- Transactions that a controller holds: those in a slot (R203, R230). -/
def Chan.inSlots (c : Chan) : Nat := (c.held.filter fun x => !x.acked).length

/-- CLK_NOC edges up to a tick (R80, R363). -/
def State.nocCycles (s : State) (tb : Nat) : Nat := tb * (if s.part.speed15 then 8 else 10) / s.clk.noc2

/-- Every controller that holds 48 transactions counts `n` CLK_NOC cycles in FULL_CYCLES (R203). -/
def State.fullCycles (s : State) (n : Nat) : State :=
  s.forEach (s.chans.filter fun e => e.2.inSlots == 48) fun s e => s.count (aDramTxn (channelTile e.1)) 16 32 n

/-- The time base moved to a later tick; REFCNT counts the HREFCLK edges passed, modulo 2^48 (R80, R339), FULL_CYCLES the
CLK_NOC cycles (R203). -/
def State.advanceTo (s : State) (tb : Nat) : State :=
  if s.tb < tb then
    ({ s with tb, refcnt := (s.refcnt + (tb / s.refTicks - s.tb / s.refTicks)) % 2 ^ 48 } : State).fullCycles
      (s.nocCycles tb - s.nocCycles s.tb)
  else s

/-- The Mast is locked: the time base counts (R373). -/
def State.locked (s : State) : Bool := s.bitOf aMastStat 0

/- Claims (R407): kinds 0 pin, 1 lane, 2 DCO, 3 serial block, 4 speed bridge, 5 BAR4 range, 6 DRAM granule. Holders are 0
none, 1 HOST, 2 the firmware, 16 + m region m through its image. -/

/-- Holder of a resource other than a DRAM granule. -/
def State.claim (s : State) (kind i : Nat) : Nat := mapGet (fun _ => 0) s.mci.claims (1024 * kind + i)

def State.setClaim (s : State) (kind i holder : Nat) : State :=
  { s with mci := { s.mci with claims := mapSet (fun _ => 0) s.mci.claims (1024 * kind + i) holder } }

/-- An activity of the running part: nothing while it is held in device reset; no rule at all once CLOCK_SET has forced
dividers beyond the ratio limits (R364). -/
def State.act (s : State) (f : State → State) : Host.Outcome State Fault Refusal :=
  if s.clk.undef then .fault .clocksUndefined
  else if s.pwr.inReset then .next s
  else .next (f s)

/-- An event from outside that reaches the part in any state: pins, supplies, the reference clock. -/
def State.always (s : State) (f : State → State) : Host.Outcome State Fault Refusal := .next (f s)

end Sys2Proof.Machine
end

