-- ==== Sys2Proof/Machine/Noc.lean ====
section
/-! DEFINITION. The packet network (R211 to R231): packet fields, routing, router grants, tags and answers. Networks are
0 REQ, 1 RSP, 2 SNP, 3 DAT; router inputs and outputs are 0 to 3 for N, E, S, W and 8 + p for endpoint port p, 15 being the
link between T(0,y) and node 64 + y. -/

namespace Sys2Proof.Machine

/-- ORIGIN code (R217). -/
def originCode : Origin → Nat
  | .region m => m % 16
  | .host => 0x10
  | .mgmt => 0x11
  | .config => 0x12
  | .jtag => 0x13
  | .trace => 0x14

/- Packet statuses (R221). -/
def stOk : Nat := 0
def stFenced : Nat := 1
def stDecode : Nat := 2
def stDenied : Nat := 3
def stMalformed : Nat := 4
def stUnreachable : Nat := 5

/-- Number of a packet's network (R211). -/
def pktNet : Packet → Nat
  | .req _ => 0
  | .rsp _ => 1
  | .snp _ => 2
  | .dat _ => 3

/-- Destination node and endpoint of a packet. -/
def pktDst : Packet → Nat × Nat
  | .req q => (q.dstNode, q.dstPort)
  | .rsp p => (p.dstNode, p.dstPort)
  | .snp p => (p.dstNode, p.dstPort)
  | .dat p => (p.dstNode, p.dstPort)

/-- Destination cascade position; an SNP packet stays in its device. -/
def pktDev : Packet → Option Nat
  | .req q => some q.dstDev
  | .rsp p => some p.dstDev
  | .snp _ => none
  | .dat p => some p.dstDev

def pktUrg : Packet → Nat
  | .req q => q.urg
  | .rsp p => p.urg
  | .snp p => p.urg
  | .dat p => p.urg

/-- The packet with another urgency. -/
def pktWithUrg (u : Nat) : Packet → Packet
  | .req q => .req { q with urg := u }
  | .rsp p => .rsp { p with urg := u }
  | .snp p => .snp { p with urg := u }
  | .dat p => .dat { p with urg := u }

/-- The device's own cascade position (R337, R361). -/
def State.pos (s : State) : Nat := s.fldOf aCascStat 0 4

/-- Node and endpoint at which a packet leaves the network: its destination, or the lane hub that the route table names
for another device's position (R215). -/
def State.exitOf (s : State) (p : Packet) : Nat × Nat :=
  match pktDev p with
  | some d => if d = s.pos then pktDst p else (quadTile (s.fldOf (aCascRoute d) 1 8 / 4), 6)
  | none => pktDst p

/-- The way around a ring of 8 from `a` to `b`: true for increasing, which also takes a tie of 4 hops (R225). -/
def ringUp (a b : Nat) : Bool := decide ((b + 8 - a) % 8 ≤ 4)

/-- The output a packet for node `dst`, port `port` takes at `node` (R225). -/
def routeOut (node dst port : Nat) : Nat :=
  if 64 ≤ node then
    if node = dst then 8 + port else if 64 ≤ dst then 8 + port else 15
  else
    let tgt := if 64 ≤ dst then 8 * (dst - 64) else dst
    if node % 8 ≠ tgt % 8 then (if ringUp (node % 8) (tgt % 8) then 1 else 3)
    else if node / 8 ≠ tgt / 8 then (if ringUp (node / 8) (tgt / 8) then 0 else 2)
    else if 64 ≤ dst then 15
    else 8 + port

/-- Node and input reached by an output that is a link. -/
def linkEnd (node out : Nat) : Option (Nat × Nat) :=
  if out < 4 then some (neighbour node out, farInput out)
  else if out = 15 then some (if 64 ≤ node then (8 * (node - 64), 15) else (64 + node / 8, 15))
  else none

/-- Class on the next link (R226): VC1 across a wrap-around, VC0 on a turn from x to y, else as it is. -/
def nextVc (node out input vc : Nat) : Nat :=
  if wraps node out then 1
  else if (input = 1 ∨ input = 3) ∧ (out = 0 ∨ out = 2) then 0
  else vc

/-- A packet put into an injection queue, or handed over at the crossbar between I/O die endpoints (R212). -/
def State.inject (s : State) (node port : Nat) (p : Packet) : State :=
  let (dn, _) := s.exitOf p
  if 64 ≤ node ∧ 64 ≤ dn then { s with noc := { s.noc with arrived := s.noc.arrived ++ [p] } }
  else
    { s with noc := { s.noc with
        flights := s.noc.flights ++ [{ node, net := pktNet p, input := 8 + port, vc := 0, wait := 0, pkt := p }] } }

/-- The heads of the buffers of a node on a network: the first packet of each input and class. -/
def Noc.heads (n : Noc) (node net : Nat) : List Flight :=
  (n.flights.filter fun f => f.node == node && f.net == net).foldl
    (fun hs f => if hs.any fun h => h.input == f.input && h.vc == f.vc then hs else hs ++ [f]) []

/-- The next buffer of a packet has room (R228): a place in its class, or an endpoint, which sinks it or keeps it at its
port. For the REQ packets that a port may keep the spec gives no number: a port never fills up (DESIGN CHOICE; log 99). -/
def Noc.room (n : Noc) (f : Flight) (out : Nat) : Bool :=
  match linkEnd f.node out with
  | some (next, input) =>
    decide ((n.flights.filter fun g =>
      g.node == next && g.net == f.net && g.input == input && g.vc == nextVc f.node out f.input f.vc).length < n.places)
  | none => true

/-- Place of an input among tied ones: those not yet granted by number, then the others from the one whose last grant lies
furthest back, so that none is granted twice before every other tied one has been granted once (R228). -/
def rrPlace (granted : List Nat) (input : Nat) : Nat :=
  if granted.contains input then 16 * (granted.idxOf input + 1) + input else input

/-- The head that an output grants: the highest URG, then round-robin over the inputs (R228). -/
def State.nocChoice (s : State) (node net out : Nat) : Option Flight :=
  let last := mapGet (fun _ => []) s.noc.rr ((node * 4 + net) * 16 + out)
  let hs := (s.noc.heads node net).filter fun f =>
    let (dn, dp) := s.exitOf f.pkt
    routeOut node dn dp == out && s.noc.room f out
  hs.foldl (fun best f => match best with
    | none => some f
    | some b =>
      if pktUrg b.pkt < pktUrg f.pkt ∨
         (pktUrg b.pkt = pktUrg f.pkt ∧ rrPlace last f.input < rrPlace last b.input) then some f else some b) none

/-- One grant of a router output (R228): the chosen packet moves on, or reaches its endpoint. -/
def State.flitGrant (s : State) (node net out : Nat) : State :=
  match s.nocChoice node net out with
  | none => s
  | some f =>
    match takeFirst (fun g => g == f) s.noc.flights with
    | none => s
    | some (_, rest) =>
      let k := (node * 4 + net) * 16 + out
      let order := (mapGet (fun _ => []) s.noc.rr k).filter (· != f.input) ++ [f.input]
      let n := { s.noc with rr := mapSet (fun _ => []) s.noc.rr k order }
      match linkEnd node out with
      | some (next, input) =>
        { s with noc := { n with flights := rest ++
            [{ node := next, net, input, vc := nextVc node out f.input f.vc, wait := 0, pkt := f.pkt }] } }
      | none => { s with noc := { n with flights := rest, arrived := s.noc.arrived ++ [f.pkt] } }

/-- The wait count of a head reaches a multiple of 64: its URG rises, up to 15, and a rise to 15 is counted (R227, R228). -/
def State.urgencyRise (s : State) (node net input vc : Nat) : State :=
  match takeFirst (fun g => g.node == node && g.net == net && g.input == input && g.vc == vc) s.noc.flights with
  | none => s
  | some (f, _) =>
    let u := pktUrg f.pkt
    if u < 15 then
      let up := fun g => if g == f then { g with wait := g.wait + 64, pkt := pktWithUrg (u + 1) g.pkt } else g
      let s1 := { s with noc := { s.noc with flights := s.noc.flights.map up } }
      if u + 1 = 15 ∧ node < 64 then s1.count (aNocRtr node) 16 16 else s1
    else s

/-- The operand packet is taken out of the packets that have reached an endpoint, where it stands among them. -/
def State.takeArrived (s : State) (p : Packet) : State :=
  match takeFirst (fun q => q == p) s.noc.arrived with
  | some (_, rest) => { s with noc := { s.noc with arrived := rest, before := s.noc.before.filter fun x => .req x.2 != p } }
  | none => s

/- Requests and tags (R213, R229). -/

/-- Size of the tag pool of an endpoint (R213). -/
def tagPool (node port : Nat) : Nat :=
  if node < 64 then
    match port with
    | 3 => 1056
    | 4 => 512
    | 5 => 64
    | 6 => 1024
    | _ => 0
  else
    match port with
    | 0 => 256
    | 1 => 512
    | 2 => 1024
    | 3 => 4
    | _ => 0

/-- Base urgency of an endpoint (R213). -/
def baseUrg (node port : Nat) : Nat :=
  if node < 64 then (if port = 5 then 2 else 4)
  else match port with
    | 1 => 2
    | 3 => 0
    | _ => 1

/-- Channel of a DRAM address (R187). -/
def dramChannel (a : Nat) : Nat := (a / 2 ^ 8 % 64) ^^^ (a / 2 ^ 14 % 64) ^^^ (a / 2 ^ 20 % 64) ^^^ (a / 2 ^ 26 % 64)

/-- The channel a tile controls (R18, R186). -/
def tileChannel (t : Nat) : Nat :=
  let x := t % 8
  let y := t / 8
  16 * (2 * (y / 4) + x / 4) + 4 * (y % 4) + x % 4

/-- Whether an address lies in the ranges of R206. -/
def inMap (a : Nat) : Bool :=
  decide (a < 0x10_0000_0000 ∨ (0x10_0000_0000 ≤ a ∧ a < 0x10_0800_0000) ∨ (0x11_0000_0000 ≤ a ∧ a < 0x11_E980_0000) ∨
    (0x12_0000_0000 ≤ a ∧ a < 0x12_0218_2000) ∨ (0x13_0000_0000 ≤ a ∧ a < 0x13_0100_0000) ∨
    (0x14_0000_0000 ≤ a ∧ a < 0x15_0000_0000) ∨ (0x15_0000_0000 ≤ a ∧ a < 0x15_0400_0000) ∨
    (0x15_0800_0000 ≤ a ∧ a < 0x15_0800_0400) ∨ (0x15_1000_0000 ≤ a ∧ a < 0x15_2000_0000) ∨
    (0x16_0000_0000 ≤ a ∧ a < 0x16_0004_0000) ∨ (0x17_0000_0000 ≤ a ∧ a < 0x17_0040_0000))

/-- A memory of the clusters in the internal map (R61): base and size per cluster, base for the spares, entry width. -/
structure CluMem where
  base : Nat
  per : Nat
  spare : Nat
  width : Nat
  deriving DecidableEq, Repr

def cluMems : List CluMem :=
  [⟨0x11_0000_0000, 262144, 0x11_E000_0000, 4⟩, ⟨0x11_8000_0000, 32768, 0x11_E800_0000, 2⟩,
   ⟨0x11_A000_0000, 32768, 0x11_E900_0000, 32⟩, ⟨0x11_C000_0000, 65536, 0x11_E400_0000, 1⟩,
   ⟨0x12_0000_0000, 2048, 0x12_0200_0000, 8⟩, ⟨0x12_0100_0000, 32, 0x12_0210_0000, 1⟩,
   ⟨0x12_0180_0000, 32, 0x12_0218_0000, 1⟩]

/-- What a byte address of the internal map names. -/
inductive Place where
  | dram
  | scratchpad (t : Nat)
  /-- A cluster memory: entry width, tile, cluster name, address in the memory of name 0, and offset in the cluster's part. -/
  | cluster (mem : CluMem) (t c off : Nat)
  | array (t off : Nat)
  | glueFrame (fa off : Nat)
  | serial
  | window (off : Nat)
  | tileRegs (t off : Nat)
  | ownership
  | ioRegs
  | secure
  | flash
  | nowhere
  deriving DecidableEq, Repr

/-- Frames of each frame type of a glue region (R243). -/
def frameCount (type_ : Nat) : Nat :=
  match type_ with
  | 0 => 6144
  | 1 => 2048
  | 2 => 1296
  | 3 => 36
  | 4 => 16
  | _ => 0

/-- The frame address is defined (R243). -/
def frameOk (fa : Nat) : Bool := decide (fa % 2 ^ 14 < frameCount (fa / 2 ^ 14 % 8)) && decide (fa < 2 ^ 20)

/-- The cluster memory that holds an address. -/
def cluPlace (a : Nat) : Option Place :=
  cluMems.findSome? fun m =>
    if m.base ≤ a ∧ a < m.base + 8192 * m.per then
      let k := (a - m.base) / m.per
      some (.cluster m (k / 128) (k % 128) ((a - m.base) % m.per))
    else if m.spare ≤ a ∧ a < m.spare + 256 * m.per then
      let k := (a - m.spare) / m.per
      some (.cluster m (k / 4) (128 + k % 4) ((a - m.spare) % m.per))
    else none

/-- The place of an address (R206, R207): `nowhere` outside every range or beyond the extent its chapter defines. Of the I/O
die registers the chapters define the 64 KiB blocks 1 to 11 of the range (log 99). -/
def placeOf (p : Part) (a : Nat) : Place :=
  if a < 0x10_0000_0000 then (if a < (if p.dram64 then 0x10_0000_0000 else 0x8_0000_0000) then .dram else .nowhere)
  else if a < 0x10_0800_0000 then .scratchpad ((a - 0x10_0000_0000) / 0x20_0000)
  else if 0x11_0000_0000 ≤ a ∧ a < 0x13_0000_0000 then (cluPlace a).getD .nowhere
  else if 0x13_0000_0000 ≤ a ∧ a < 0x13_0100_0000 then
    let o := (a - 0x13_0000_0000) % 0x4_0000
    let t := (a - 0x13_0000_0000) / 0x4_0000
    if o < 0x1_8888 ∨ (0x1_9000 ≤ o ∧ o < 0x1_9400) ∨ (0x1_A000 ≤ o ∧ o < 0x1_A600) then .array t o else .nowhere
  else if 0x14_0000_0000 ≤ a ∧ a < 0x14_0800_0000 then
    let fa := (a - 0x14_0000_0000) / 128
    if frameOk fa then .glueFrame fa ((a - 0x14_0000_0000) % 128) else .nowhere
  else if 0x14_4000_0000 ≤ a ∧ a < 0x14_4000_3000 then .serial
  else if 0x14_8000_0000 ≤ a ∧ a < 0x14_8100_0000 then .window (a - 0x14_8000_0000)
  else if 0x15_0000_0000 ≤ a ∧ a < 0x15_0400_0000 then
    .tileRegs ((a - 0x15_0000_0000) / 0x10_0000) ((a - 0x15_0000_0000) % 0x10_0000)
  else if 0x15_0800_0000 ≤ a ∧ a < 0x15_0800_0400 then
    (if a - 0x15_0800_0000 < (if p.dram64 then 1024 else 512) then .ownership else .nowhere)
  else if 0x15_1001_0000 ≤ a ∧ a < 0x15_100C_0000 then .ioRegs
  else if 0x16_0000_0000 ≤ a ∧ a < 0x16_0004_0000 then .secure
  else if 0x17_0000_0000 ≤ a ∧ a < 0x17_0040_0000 then .flash
  else .nowhere

/-- Node and endpoint of an address as a tile or I/O die requester of row `y` addresses it (R213, R214). An address inside a
range of R206 and outside its extent goes to port 5 of that bridge, which answers DECODE: the spec names no endpoint for it
(DESIGN CHOICE; log 99). -/
def targetOf (p : Part) (y a : Nat) : Nat × Nat :=
  match placeOf p a with
  | .dram => (channelTile (dramChannel a), 2)
  | .scratchpad t => (t, 1)
  | .cluster _ t _ _ => (t, 0)
  | .array t _ => (t, 0)
  | .tileRegs t _ => (t, 0)
  | .glueFrame _ _ | .serial | .window _ => (64 + y, 4)
  | _ => (64 + y, 5)

/-- The node an I/O die requester injects at: the bridge of the destination tile's row (R213). -/
def ioNode (dst : Nat) : Nat := if 64 ≤ dst then dst else 64 + dst / 8

/-- Sends a request to an endpoint: takes the lowest free tag of the requester's pool, which keeps the places of its answers,
and injects the REQ packet; a WRB carries its data only with the tag, until its GRANT (R229, R230). An address outside R206
is answered with DECODE by the requester's own router (R214). Answers false where no tag is free. -/
def State.sendTo (s : State) (node port : Nat) (origin : Origin) (write : Bool) (addr len : Nat) (data : List Byte)
    (dev : Nat) (use : TagUse) (dst : Nat × Nat) : State × Bool :=
  let busy := (s.noc.tags.filter fun x => x.port == port && (x.node == node || decide (64 ≤ node ∧ 64 ≤ x.node))).map (·.tag)
  match (List.range (tagPool node port)).find? fun i => !busy.contains i with
  | none => (s, false)
  | some tag =>
    let op := if write then (if len ≤ 16 then ReqOp.wr else .wrb) else .rd
    let q : Req := { op, urg := baseUrg node port, dstNode := dst.1, dstPort := dst.2, srcNode := node, srcPort := port, tag,
                     len, origin, dstDev := dev, srcDev := s.pos, addr, data, poison := false }
    let s1 : State := { s with noc := { s.noc with tags := s.noc.tags ++ [{ node, port, tag, req := q, use }] } }
    let pkt : Packet := .req { q with data := if op = .wrb then [] else data }
    if inMap addr then (s1.inject node port pkt, true)
    else
      let rsp : Packet := if !write && 8 < len then
          .dat { write := false, urg := q.urg, dstNode := node, dstPort := port, tag, srcNode := node, srcPort := port,
                 status := stDecode, poison := false, dstDev := s.pos, srcDev := s.pos, data := zeros 64 }
        else .rsp { grant := false, urg := q.urg, dstNode := node, dstPort := port, tag, status := stDecode,
                    poison := false, dstDev := s.pos, data := [] }
      let s2 := s1.nocErrAt addr stDecode (originCode origin) node
      ({ s2 with noc := { s1.noc with arrived := s1.noc.arrived ++ [rsp] } }, true)

/-- Sends a request to the endpoint that its address names (R214). -/
def State.sendReq (s : State) (node port : Nat) (origin : Origin) (write : Bool) (addr len : Nat) (data : List Byte)
    (dev : Nat) (use : TagUse) : State × Bool :=
  s.sendTo node port origin write addr len data dev use
    (targetOf s.part (if 64 ≤ node then node - 64 else node / 8) addr)

/-- The tag of an answer, with the held list without it. -/
def State.releaseTag (s : State) (node port tag : Nat) : Option (TagHeld × State) :=
  match takeFirst (fun x => x.node == node && x.port == port && x.tag == tag) s.noc.tags with
  | some (x, rest) => some (x, { s with noc := { s.noc with tags := rest } })
  | none => none

/-- Data placed in its 64-byte block, other bytes 0 (R220), and taken out of it. -/
def toBlock (a : Nat) (d : List Byte) : List Byte := (zeros (a % 64) ++ d ++ zeros 64).take 64
def ofBlock (a n : Nat) (d : List Byte) : List Byte := sub d (a % 64) n

/- The end-to-end check (R220, R222). -/

/-- The check bits that the sending endpoint makes of a block of 64 bytes. -/
def checkOf (d : List Byte) : List Byte :=
  (List.range 8).map fun i => Config.checkByte (BitVec.ofNat 64 (leNum d (8 * i) 8))

/-- Number of ones of a byte. -/
def ones8 (b : Byte) : Nat := ((List.range 8).filter b.getLsbD).length

/-- A word against its check bits: as it is, or with its one wrong bit corrected; false where the check fails. -/
def secded (w : W64) (c : Byte) : W64 × Bool :=
  if ones8 (Config.checkByte w ^^^ c) ≤ 1 then (w, true)
  else match (List.range 64).find? fun i => Config.checkByte (w ^^^ (1#64 <<< i)) == c with
    | some i => (w ^^^ (1#64 <<< i), true)
    | none => (w, false)

/-- A DAT packet as its sink takes it: checked where its check bits came over a link, poisoned where a word fails. -/
def sunk (d : Dat) : Dat :=
  if d.check.isEmpty then d
  else
    let ws := (List.range 8).map fun i => secded (BitVec.ofNat 64 (leNum d.data (8 * i) 8)) (d.check.getD i 0)
    { d with data := ws.flatMap fun w => bytesOfNat 8 w.1.toNat, poison := d.poison || !(ws.all (·.2)), check := [] }

/-- The last answer of a request (R219, R220, R227): RDATA for a read of more than 8 bytes, else a completion; a read with
a status other than OK returns zero data (R221). -/
def answerOf (pos : Nat) (q : Req) (status : Nat) (data : List Byte) (poison : Bool) : Packet :=
  let d := if status = 0 then data else zeros q.len
  if q.op = .rd ∧ 8 < q.len then
    .dat { write := false, urg := q.urg, dstNode := q.srcNode, dstPort := q.srcPort, tag := q.tag, srcNode := q.dstNode,
           srcPort := q.dstPort, status, poison, dstDev := q.srcDev, srcDev := pos, data := toBlock q.addr d }
  else
    .rsp { grant := false, urg := q.urg, dstNode := q.srcNode, dstPort := q.srcPort, tag := q.tag, status, poison,
           dstDev := q.srcDev, data := if q.op = .rd then d else [] }

/-- Answers a request from its endpoint; DECODE, DENIED and MALFORMED are recorded, RSP_FENCED counted (R223, R237). -/
def State.answer (s : State) (q : Req) (status : Nat) (data : List Byte) (poison : Bool) : State :=
  let s1 := if status = stDecode ∨ status = stDenied ∨ status = stMalformed then
      s.nocErr q.addr status (originCode q.origin) q.dstNode
    else if status = stFenced then s.fencedRsp q.dstNode
    else s
  s1.inject q.dstNode q.dstPort (answerOf s.pos q status data poison)

/-- The request is well formed by its own fields (R218). -/
def reqFormed (q : Req) : Bool :=
  (if q.len = 1 ∨ q.len = 2 ∨ q.len = 4 ∨ q.len = 8 then q.addr % q.len == 0
   else decide (16 ≤ q.len ∧ q.len ≤ 64 ∧ q.addr % 64 + (q.len - 1) ≤ 63)) &&
  (match q.op with
   | .rd => true
   | .wr => decide (1 ≤ q.len ∧ q.len ≤ 16)
   | .wrb => decide (17 ≤ q.len ∧ q.len ≤ 64))

/-- Tags of region `m`'s requesters outstanding (R237): its memory-model units and stream arrays. -/
def State.outTags (s : State) (m : Nat) : Nat :=
  (s.noc.tags.filter fun x => decide (x.node < 64) && regionOfTile x.node == m && (x.port == 3 || x.port == 4)).length

end Sys2Proof.Machine
end

