-- ==== Sys2Proof/Machine/Fabric.lean ====
section
/-! DEFINITION. The logic of the glue fabric (R238 to R248, R257 to R261): which regions run, the value of every wire, and
what an edge of a clock tree does to flip-flops and block RAMs. Configuration is read from the frames by Config (log 7). -/

namespace Sys2Proof.Machine

/- Regions and clocks. -/

/-- TB ticks in one CLK_GLUE cycle (R5, R80, R363): 4 at the default clocks of both grades. -/
def State.glueTicks (s : State) : Nat := max 1 (s.clk.glue2 / (if s.part.speed15 then 8 else 10))

/-- DEV_STATE: 0 UNCONFIGURED, 1 READY, 2 RUNNING, 3 STOPPED (R290, R307). -/
def State.devState (s : State) : Nat := s.fldOf aCfgStatus 0 3

/-- Glue region `n` is fenced, with GSR0 asserted in it: while the device does not run, and from REGION_FENCE until its
release (R244, R248, R291). -/
def State.glueFenced (s : State) (n : Nat) : Bool :=
  s.devState != 2 || s.rgnState (16 + n) != 2

/-- Logic drives signals of glue region `n`: an image configures it and it runs. -/
def State.glueRuns (s : State) (n : Nat) : Bool := !s.glueFenced n

/-- Source of a clock tree, or none while it waits for a forced switch (R246, R247). -/
def State.treeSrc (s : State) (k : Nat) : Option Nat :=
  if k = 0 then some 0
  else if s.glue.switching.contains k then none
  else some (s.fldOf (aGclkSel k) 0 4)

/-- The output of a DCO runs: enabled, with HREFCLK, and not held low by GATE (R251, R252). -/
def State.dcoRuns (s : State) (k : Nat) : Bool :=
  s.bitOf (aDcoCfg k) 0 && s.pwr.href && (s.bitOf (aDcoStat k) 0 || !s.bitOf (aDcoCfg k) 1)

/- Frames (R243). -/

/-- Address of a frame of region `n`, by its type and index. -/
def frameAddr (n ty i : Nat) : Nat := 0x14_0000_0000 + 128 * (n * 2 ^ 17 + ty * 2 ^ 14 + i)

def State.frame (s : State) (n ty i : Nat) : List Byte := s.bytes (frameAddr n ty i) 128

def State.bay (s : State) (n i : Nat) : Bay := Config.bayOf (s.frame n 0 i)

/-- The type-4 frames of a region. -/
def State.boundaryFrames (s : State) (n : Nat) : List Byte := s.bytes (frameAddr n 4 0) 2048

/-- The frames of a region that configure its logic, without block RAM contents. -/
def State.logicFrames (s : State) (n : Nat) : List Host.Cell :=
  s.mem.filter fun e => decide (frameAddr n 0 0 ≤ e.1 ∧ e.1 < frameAddr (n + 1) 0 0) && (e.1 - frameAddr n 0 0) / 2 ^ 21 != 2

/- Signals into the logic. -/

/-- Input level of pin `p` as IN shows it (R267). -/
def State.pinIn (s : State) (p : Nat) : Bool := s.bitOf (aIn (p / 32)) (p % 32)

/-- First lane of a glue region (R238, R310), and the region of a lane. -/
def firstLane (n : Nat) : Nat := 36 * (n / 2) + 18 * (n % 2)
def laneRegion (lane : Nat) : Nat := 2 * (lane / 36) + lane % 36 / 18

/-- The block or transfer that a lane of region `n` presents in slot 0 or 1 (R260). -/
def State.laneSlot (s : State) (n lane slot : Nat) : Option (Nat × W64) :=
  ((s.rawRx.filter fun e => e.1 == firstLane n + lane)[slot]?).map (·.2)

/-- The request that the user bus port of a region presents (R261). -/
def State.busHead (s : State) (n : Nat) : Option Bar4Req := s.glue.bar4.find? fun q => q.n == n

/-- The oldest byte received by a serial block. -/
def State.serHead (s : State) (b : Nat) : Option Byte := (s.glue.serRx.find? fun e => e.1 == b).map (·.2)

/-- A signal of a hard resource as the logic of region `n` sees it; one that the region does not have is 0. -/
def State.glueIn (s : State) (n : Nat) : GlueIn → Bool
  | .pin p => decide (p < 32) && s.pinIn (32 * n + p)
  | .brTick b => decide (b < 2) && s.glue.ticked.contains (2 * n + b)
  | .brOut b i => decide (b < 2) && (s.br (2 * n + b)).brOut.getLsbD i
  | .dcoStable => s.bitOf (aDcoStat n) 0
  | .busReq => (s.busHead n).isSome
  | .busWrite => ((s.busHead n).map (·.write)).getD false
  | .busWide => ((s.busHead n).map fun q => q.size == 8).getD false
  | .busAddr i => ((s.busHead n).map fun q => (q.off % 0x20_0000).testBit i).getD false
  | .busData i => ((s.busHead n).map fun q => q.value.getLsbD i).getD false
  | .laneValid l j => decide (l < 18) && (s.laneSlot n l j).isSome
  | .laneHead l j i => decide (l < 18) && ((s.laneSlot n l j).map fun e => e.1.testBit i).getD false
  | .laneData l j i => decide (l < 18) && ((s.laneSlot n l j).map fun e => e.2.getLsbD i).getD false
  | .serValid b => n == 7 && (s.serHead b).isSome
  | .serData b i => n == 7 && ((s.serHead b).map fun x => x.getLsbD i).getD false
  | .serReady b => n == 7 && decide (b < 3 ∧ (s.glue.serTx.filter fun e => e.1 == b).length < 64)
  | .flashData i => n == 7 && (s.glue.flashOut.getLastD 0).getLsbD i

/- Wires. -/

/-- A flip-flop of a bay is held at its INIT value: by GSR0, or by the user tree that the bay selects (R248). -/
def State.ffHeld (s : State) (n : Nat) (b : Bay) : Bool :=
  s.glueFenced n || (decide (1 ≤ b.gsr ∧ b.gsr ≤ 3) && s.glue.gsr.testBit b.gsr)

/-- Key of a flip-flop. -/
def ffKey (n bay cell : Nat) : Nat := 8 * (6144 * n + bay) + cell

/-- The output of a flip-flop. -/
def State.ffVal (s : State) (n bay cell : Nat) : Bool :=
  let b := s.bay n bay
  if s.ffHeld n b then (b.cell cell).init
  else (b.cell cell).init != mapGet (fun _ => false) s.glue.ffs (ffKey n bay cell)

/-- Key of a block RAM port. -/
def ramKey (n block : Nat) (portB : Bool) : Nat := 2 * (36 * n + block) + portB.toNat

/-- The value of a wire of region `n`. A long line whose code names no driver carries 0 (R241); a boundary cell presents its
constant while the region it receives from does not run (R245). A path longer than the fuel is a combinational loop, whose
value the spec leaves open. -/
def State.wireVal (s : State) : Nat → Nat → Wire → Bool
  | 0, n, _ => Config.glueBit s.free n
  | fuel + 1, n, w => match w with
    | .const b => b
    | .lut bay j => (s.bay n bay).lut (s.wireVal fuel n) j
    | .ff bay j => s.ffVal n bay j
    | .line f k => match Config.lineDriver f k (Config.lineCode (s.frame n 1 f) k) with
      | some d => s.wireVal fuel n d
      | none => false
    | .ram block p i => (mapGet (fun _ => 0) s.glue.ramOut (ramKey n block p)).testBit i
    | .boundary i =>
      let c := Config.boundaryOf (s.boundaryFrames n) i
      if c.src < 8 ∧ s.glueRuns c.src = true then s.wireVal fuel c.src c.wire else c.const
    | .sig g => s.glueIn n g

/-- More wires than a path through the eight regions can hold. -/
def fabricDepth : Nat := 2 ^ 20

/-- The value of a wire of region `n` as it stands. -/
def State.wire (s : State) (n : Nat) (w : Wire) : Bool := s.wireVal fabricDepth n w

/-- What the logic of region `n` drives on a signal; 0 where nothing drives it, and in an unconfigured region (R258). -/
def State.sink (s : State) (n : Nat) (o : GlueOut) : Bool :=
  if s.rgnState (16 + n) = 0 then false
  else match Config.sinkOf (s.logicFrames n) o with
    | some w => s.wire n w
    | none => false

/-- A word of signals, the least significant first. -/
def State.sinkNum (s : State) (n w : Nat) (o : Nat → GlueOut) : Nat :=
  (List.range w).foldl (fun v i => v + 2 ^ i * b2n (s.sink n (o i))) 0

/-- A signal of the logic of region `n` has a driver (R258). -/
def State.sinkDriven (s : State) (n : Nat) (o : GlueOut) : Bool := (Config.sinkOf (s.logicFrames n) o).isSome

/-- BR_IN as the bridge captures it (R258): bits bound to pins under EMUL carry the pins; the others what glue logic of
the bridge's region drives, or 0. -/
def State.brInWord (s : State) (m : Nat) : W64 :=
  let g : W64 := BitVec.ofNat 64 (s.sinkNum (m / 2) 64 (.brIn (m % 2)))
  (List.range 256).foldl (fun v p =>
    let c := s.reg (aPinCfg p)
    if fld c 0 3 = 6 ∧ fld c 32 4 = m ∧ !bit c 36 then putFld v (fld c 24 6) 1 (b2n (s.pinIn p)) else v) g

/- Edges of the clock trees (R239, R242, R246). -/

/-- The flip-flops of a bay after an edge of its tree. -/
def State.bayEdge (s : State) (n i : Nat) (m : Map Bool) : Map Bool :=
  let b := s.bay n i
  (List.range 8).foldl (fun m j =>
    let c := b.cell j
    let key := ffKey n i j
    if s.ffHeld n b then mapSet (fun _ => false) m key false
    else if (c.ce.map (s.wire n)).getD true then mapSet (fun _ => false) m key (b.ffD (s.wire n) j != c.init)
    else m) m

/-- Block RAM `block` of a region: its contents are its 36 type-2 frames, bit 0 of the first lowest (R243). -/
def ramBase (n block : Nat) : Nat := frameAddr n 2 (36 * block)

/-- `w` bits of a block RAM from bit `lo`. -/
def State.ramBits (s : State) (base lo w : Nat) : Nat :=
  s.num (base + lo / 8) ((lo % 8 + w + 7) / 8) / 2 ^ (lo % 8) % 2 ^ w

/-- `w` bits of a block RAM written from bit `lo`. -/
def State.putRamBits (s : State) (base lo w x : Nat) : State :=
  let k := (lo % 8 + w + 7) / 8
  let old := s.num (base + lo / 8) k
  let keep := old - old / 2 ^ (lo % 8) % 2 ^ w * 2 ^ (lo % 8)
  s.putMem (base + lo / 8) (bytesOfNat k (keep + x % 2 ^ w * 2 ^ (lo % 8)))

/-- The first bit of the word that a port addresses. -/
def State.ramAt (s : State) (n : Nat) (p : RamPort) : Nat := wiresNum (s.wire n) p.addr % (36864 / p.width) * p.width

/-- The port applies SECDED (R242). -/
def RamCfg.checks (c : RamCfg) (p : RamPort) : Bool := c.ecc && p.width == 72

/-- What a port's read shows: the word, with its single-bit error corrected and its double-bit error flagged where the port
checks. -/
def State.ramRead (s : State) (n block : Nat) (c : RamCfg) (p : RamPort) : Nat :=
  let x := s.ramBits (ramBase n block) (s.ramAt n p) p.width
  if c.checks p then
    let r := secded (BitVec.ofNat 64 x) (BitVec.ofNat 8 (x / 2 ^ 64))
    r.1.toNat + x / 2 ^ 64 * 2 ^ 64 + 2 ^ 72 * b2n (!r.2)
  else x

/-- What a port writes. -/
def State.ramData (s : State) (n : Nat) (c : RamCfg) (p : RamPort) : Nat :=
  let x := wiresNum (s.wire n) p.din % 2 ^ p.width
  if c.checks p then x % 2 ^ 64 + 2 ^ 64 * (Config.checkByte (BitVec.ofNat 64 x)).toNat else x

/-- The ports of a block RAM that an edge of the given trees clocks, A before B. -/
def State.ramPorts (s : State) (on : Nat → Bool) (n : Nat) (c : RamCfg) : List (Bool × RamPort) :=
  ([(false, c.a), (true, c.b)] : List (Bool × RamPort)).filter fun p => on p.2.tree && (p.2.width == 9 || p.2.width == 18 || p.2.width == 36 || p.2.width == 72) &&
    s.wire n p.2.en

/-- A block RAM at an edge: reads see the old contents, port B's write comes after port A's (R242). A writing port keeps its
output (log 100). Wires are taken from `s`, the effects made on `t`. -/
def State.ramEdge (s : State) (on : Nat → Bool) (n : Nat) (t : State) (block : Nat) : State :=
  let c := Config.ramOf (s.frame n 3 block)
  let ps := s.ramPorts on n c
  let out := ps.foldl (fun m p =>
    if s.wire n p.2.we then m else mapSet (fun _ => 0) m (ramKey n block p.1) (s.ramRead n block c p.2)) t.glue.ramOut
  let t1 : State := { t with glue := { t.glue with ramOut := out } }
  t1.forEach (ps.filter fun p => s.wire n p.2.we) fun t p =>
    t.putRamBits (ramBase n block) (s.ramAt n p.2) p.2.width (s.ramData n c p.2)

/-- An edge of tree `k` reaches region `n`: GCK0 always, the others while the region's yard is open (R246, R367). -/
def State.treeReaches (s : State) (on : Nat → Bool) (n k : Nat) : Bool := on k && (k == 0 || s.clk.opened.contains (0x500 + n))

/-- One edge of the trees that `on` names, in every region whose logic runs. -/
def State.treeEdge (s : State) (on : Nat → Bool) : State :=
  let ns := (List.range 8).filter s.glueRuns
  let ffs := ns.foldl (fun m n =>
    (List.range 6144).foldl (fun m i => if s.treeReaches on n (s.bay n i).tree then s.bayEdge n i m else m) m) s.glue.ffs
  let s1 : State := { s with glue := { s.glue with ffs } }
  s1.forEach ns fun t n => (List.range 36).foldl (s.ramEdge (s.treeReaches on n) n) t

/-- GSR1 to GSR3 as the cell outputs of G0 that drive them stand (R248). The model takes them up at CLK_GLUE edges (log 100). -/
def State.gsrNow (s : State) : Nat :=
  if s.rgnState 16 = 0 then 0
  else [1, 2, 3].foldl (fun v k => match Config.gsrOf (s.boundaryFrames 0) k with
    | some w => v + 2 ^ k * b2n (s.wire 0 w)
    | none => v) 0

/-- The fabric over one CLK_GLUE cycle: the DCO edges that fall in it, then the CLK_GLUE edge, which CLK_GLUE / 2 shares every
other time. -/
def State.fabricEdge (s : State) : State :=
  let s1 := s.forEach ((Config.dcoEdges s.free).filter fun d => decide (d < 8) && s.dcoRuns d) fun s d =>
    s.treeEdge fun k => decide (k < 8) && s.treeSrc k == some (2 + d)
  let even := s.tb / s.glueTicks % 2 == 0
  let s2 := s1.treeEdge fun k => decide (k < 8) && (s1.treeSrc k == some 0 || (even && s1.treeSrc k == some 1))
  ({ s2 with glue := { s2.glue with gsr := s1.gsrNow, ticked := [] } }).draw

end Sys2Proof.Machine
end

