-- ==== Sys2Proof/Machine/MemModel.lean ====
section
/-! DEFINITION. The memory-model unit of a tile (R52 to R55, R173, R196, R489) and the speed bridges (R22, R49, R82, R85,
R257 to R259). -/

namespace Sys2Proof.Machine

/- Memory-model unit. -/

/-- The access lies in DRAM. -/
def MmAcc.dram (a : MmAcc) : Bool := decide (a.addr < 0x10_0000_0000)

/-- The access counts as performed for the accesses behind it (R53, R173). -/
def MmAcc.performed (a : MmAcc) : Bool := a.phase == .done || a.phase == .inMmr || a.phase == .refused

/-- The access behind `before` may be presented to its bank, or sent to DRAM (R173, R196). -/
def mayGo (before : List MmAcc) (a : MmAcc) : Bool :=
  if a.dram then
    before.all fun x => x.performed ||
      (x.dram && x.phase == .sent && !(x.write && !a.write && x.addr / 64 == a.addr / 64))
  else before.all (·.performed)

/-- The first access that waits in the unit, with what stands before it. -/
def nextWaiting : List MmAcc → List MmAcc → Option (List MmAcc × MmAcc × List MmAcc)
  | _, [] => none
  | before, a :: rest =>
    if a.phase == .waiting then some (before, a, rest) else nextWaiting (before ++ [a]) rest

/-- The access a cluster would present next, when it may go and no earlier read has failed (R489). -/
def Clu.candidate (u : Clu) : Option (List MmAcc × MmAcc × List MmAcc) :=
  if u.mmBroken then none
  else match nextWaiting [] u.mm with
    | some (b, a, r) => if mayGo b a then some (b, a, r) else none
    | none => none

/-- Bank of a scratchpad address: its tile and bank (R171). -/
def bankOf (a : Nat) : Nat × Nat := ((a - 0x10_0000_0000) / 0x20_0000, a / 0x2_0000 % 16)

/-- Key of a bank. -/
def bankKey (t b : Nat) : Nat := 16 * t + b

/-- Clusters of a tile whose next access waits for the same bank, as (step of issue, name) (R173). -/
def State.rivals (s : State) (t bk : Nat) : List (Nat × Nat) :=
  s.clus.filterMap fun e =>
    if e.1 / 132 = t then
      match e.2.candidate with
      | some (_, a, _) => if !a.dram && bankKey (bankOf a.addr).1 (bankOf a.addr).2 == bk then
          some (a.since, s.nameOf t (e.1 % 132)) else none
      | none => none
    else none

/-- Refused accesses that have come first in order complete: a write leaves the unit (R55). -/
def dropRefused : List MmAcc → List MmAcc
  | [] => []
  | a :: rest => if a.phase == .refused && a.write then dropRefused rest else if a.performed then a :: dropRefused rest else a :: rest

/-- The unit presents a cluster's next access to its bank, or sends it to its channel (R173, R196). An access outside the
scratchpad of the tile, which a staged image never makes (R56), goes out on the packet network as one to DRAM does. -/
def State.mmPresent (s : State) (t pc : Nat) : State :=
  let k := cluKey t pc
  let u := { s.clu k with mm := dropRefused (s.clu k).mm }
  let s := s.setClu k u
  match u.candidate with
  | none => s
  | some (before, a, rest) =>
    let sent := { u with mm := before ++ { a with phase := .sent } :: rest }
    let data := bytesOfNat a.size a.data.toNat
    if a.dram ∨ a.addr < 0x10_0000_0000 + 0x20_0000 * t ∨ 0x10_0020_0000 + 0x20_0000 * t ≤ a.addr then
      let r := s.sendReq t 3 (.region (regionOfTile t)) a.write a.addr a.size data s.pos (.mm t pc)
      if r.2 then r.1.setClu k sent else s
    else
      let (bt, bb) := bankOf a.addr
      let bk := bankKey bt bb
      let bank := s.bank bk
      let name := s.nameOf t pc
      let first := (s.rivals t bk).all fun x => decide (a.since < x.1 ∨ (a.since = x.1 ∧ name ≤ x.2))
      if first && !(bank.queue.any fun q => match q.src with
          | .mm _ => true
          | _ => false) then
        let q : BankReq := { src := .mm pc, write := a.write, addr := a.addr, len := a.size, data, poison := false,
                             lost := 0, got := [], bad := false }
        (s.setClu k sent).setBank bk { bank with queue := bank.queue ++ [q] }
      else s

/-- Settles the sent access of a cluster at an address: a read takes its value, a write leaves the unit. -/
def settle (addr : Nat) (write : Bool) (v : W64) : List MmAcc → List MmAcc
  | [] => []
  | a :: rest =>
    if a.phase == .sent && a.addr == addr && a.write == write then
      if write then rest else { a with phase := .done, data := v } :: rest
    else a :: settle addr write v rest

/-- A read that is not delivered: it and what follows it in MMR order are held back for good (R489). -/
def failRead (addr : Nat) (write : Bool) : List MmAcc → List MmAcc
  | [] => []
  | a :: rest =>
    if a.phase == .sent && a.addr == addr && a.write == write then
      if write then rest else { a with phase := .failed } :: rest
    else a :: failRead addr write rest

/-- The outcome of a memory-model access reaches its unit (R53, R223, R489): performed, or MEM_UE for the region. -/
def State.mmOutcome (s : State) (t pc addr : Nat) (write ok : Bool) (v : W64) : State :=
  let k := cluKey t pc
  let u := s.clu k
  if ok then s.setClu k { u with mm := settle addr write v u.mm }
  else
    (s.setClu k { u with mm := failRead addr write u.mm, mmBroken := u.mmBroken || !write }).raise 6
      (regionOfTile t) t (s.nameOf t pc) (BitVec.ofNat 64 addr) true

/-- The first read, in issue order, that does not yet stand in MMR, with the accesses around it. -/
def nextReturn : List MmAcc → List MmAcc → Option (List MmAcc × MmAcc × List MmAcc)
  | _, [] => none
  | before, a :: rest =>
    if !a.write && a.phase != .inMmr then some (before, a, rest) else nextReturn (before ++ [a]) rest

/-- The next read result, or the zero word of a read not performed, enters the MMR latch in issue order (R53, R55). -/
def State.mmrReturn (s : State) (t pc : Nat) : State :=
  let k := cluKey t pc
  let u := s.clu k
  match nextReturn [] u.mm with
  | none => s
  | some (before, a, rest) =>
    if (a.phase == .done || a.phase == .refused) && decide (u.mmr.length < 4) then
      let data := if a.phase == .refused then 0 else a.data
      s.setClu k { u with mm := before ++ { a with phase := .inMmr } :: rest, mmr := u.mmr ++ [{ gen := a.gen, data }] }
    else s

/- Speed bridges. -/

/-- The bridge is inert: it takes no new ticks and no new output words (R259). -/
def State.bridgeInert (s : State) (m : Nat) : Bool :=
  !(s.rgn m).released || s.fenced m || s.halted m || decide (s.rgnState m = 5)

/-- The home tile sends the tick that requests the input word of an ecycle (R82). -/
def State.sendTick (s : State) (m ecy : Nat) : State :=
  let b := s.br m
  s.setBr m { b with ticks := b.ticks ++ [ecy] }

/-- A tick is registered at the glue end: BR_TICK goes high for a cycle, and BR_IN is captured and sent as the word of the
ecycle it requests (R257). -/
def State.brTick (s : State) (m : Nat) : State :=
  let b := s.br m
  match b.ticks with
  | [] => s
  | ecy :: rest =>
    let s1 : State := { s with glue := { s.glue with ticked := s.glue.ticked.filter (· != m) ++ [m] } }
    let w := s1.brInWord m
    (s1.setBr m { b with ticks := rest, brIn := w, up := b.up ++ [{ gen := parity ecy, data := w }] }).draw

/-- The first input word on the link enters the BRG latches of C0 to C7 of the home tile, once each has a place (R49). -/
def State.brgArrive (s : State) (m : Nat) : State :=
  let b := s.br m
  let t := homeTile m
  let eight := (List.range 8).map fun c => cluKey t (s.phys t c)
  match b.up with
  | [] => s
  | w :: rest =>
    if eight.all fun k => decide ((s.clu k).brg.length < 2) then
      (s.forEach eight fun s k => let u := s.clu k; s.setClu k { u with brg := u.brg ++ [w] }).setBr m
        { b with up := rest }
    else s

/-- An output word reaches the glue end: it is registered with the next count, and updates BR_OUT, or waits for its
release point under OUT_ALIGN; a stepping region's words are never held back (R85, R439). -/
def State.brOutWord (s : State) (m : Nat) : State :=
  let b := s.br m
  match b.down with
  | [] => s
  | w :: rest =>
    let n := b.outCount
    if s.bitOf (aRgnRt m) 10 && !(s.rgn m).stepping then
      s.setBr m { b with down := rest, outCount := n + 1,
                         regd := b.regd ++ [{ n, w := w.data, at_ := roundUp s.tb s.glueTicks }] }
    else s.setBr m { b with down := rest, outCount := n + 1, brOut := w.data }

/-- Release edge of an output word, and whether it is late (R85): the later of the first glue edge at or after
S0 + n × PACE + OUT_DELAY and one glue cycle after its registration. -/
def State.releaseAt (s : State) (m : Nat) (o : OutWord) : Nat × Bool :=
  let want := roundUp ((s.rgn m).s0 + o.n * s.pace m + s.fldOf (aRgnRt m) 11 13) s.glueTicks
  let can := o.at_ + s.glueTicks
  (max want can, decide (want < can))

end Sys2Proof.Machine
end

