-- ==== Sys2Proof/Machine/Dram.lean ====
section
/-! DEFINITION. Stacked DRAM (R184 to R203, R230, R232): ownership, the port and the slots of a channel controller,
transactions with their errors, invalidations, refresh and scrub. -/

namespace Sys2Proof.Machine

/-- Owner code of the granule of a DRAM address (R189). -/
def State.ownerOf (s : State) (a : Nat) : Nat := (s.byte (0x15_0800_0000 + a / 0x400_0000)).toNat % 32

/-- Regions whose granules are fenced: fenced, in RETENTION or in OFF (R192), bit m for region Em. -/
def State.granuleFences (s : State) : Nat :=
  (List.range 16).foldl (fun v m => v + 2 ^ m * b2n (s.fenced m || s.fldOf (aTilePwr (homeTile m)) 0 2 != 0)) 0

/-- Status a controller gives a request by its granule's owner (R192); `fenced` is the fence state that stood when the
header reached the port. Reserved owner codes serve nobody. -/
def ownerStatus (owner : Nat) (fenced : Bool) (o : Origin) (write : Bool) : Nat :=
  if owner < 16 then
    if !fenced || o = .config || (o = .jtag && !write) then stOk else stFenced
  else if owner = 0x10 then
    (if o = .host ∨ o = .mgmt ∨ o = .jtag ∨ o = .trace then stOk else stDenied)
  else if owner = 0x11 then (if o = .mgmt ∨ o = .config then stOk else stDenied)
  else if owner = 0x1F then (if o = .host ∨ o = .mgmt ∨ o = .jtag then stOk else stDenied)
  else stDenied

/-- A request reaches the port of a channel controller (R192, R194). -/
def State.dramArrive (s : State) (g : Nat) (q : Req) : State :=
  let c := s.chan g
  let fences := (List.range 16).foldl (fun v m => v - 2 ^ m * b2n (v.testBit m && s.noc.before.contains (m, q))) s.granuleFences
  s.setChan g { c with port := c.port ++ [{ req := q, fences }] }

/-- A transaction stands in slot `i`. -/
def Txn.inSlot (x : Txn) (i : Nat) : Bool := x.slot == i && !x.acked

/-- The lowest free slot of a controller (R194). -/
def freeSlot (l : List Txn) : Option Nat := (List.range 48).find? fun i => !(l.any fun x => x.inSlot i)

/-- Status of a request at its controller (R192, R218). -/
def State.dramStatus (s : State) (q : Req) (fences : Nat) : Nat :=
  let o := s.ownerOf q.addr
  if reqFormed q then ownerStatus o (fences.testBit o) q.origin (q.op != .rd) else stMalformed

/-- The request at the head of a port is judged, and refused or accepted into a slot (R192, R194, R230); one that finds
48 transactions held waits. -/
def State.dramRequest (s : State) (g : Nat) : State :=
  let c := s.chan g
  match c.port with
  | [] => s
  | p :: rest =>
    if !c.zeroed then s
    else
      let st := s.dramStatus p.req p.fences
      if st ≠ 0 then (s.setChan g { c with port := rest }).answer p.req st [] false
      else match freeSlot c.held with
        | none => s
        | some i =>
          let x : Txn := { slot := i, req := p.req, data := p.req.data, poison := p.req.poison,
                           awaitData := p.req.op == .wrb, acks := [], inved := false }
          let s1 := s.setChan g { c with port := rest, held := c.held ++ [x] }
          let gr : Rsp := { grant := true, urg := p.req.urg, dstNode := p.req.srcNode, dstPort := p.req.srcPort,
                            tag := p.req.tag, status := 0, poison := false, dstDev := p.req.srcDev, data := [] }
          if p.req.op = .wrb then s1.inject p.req.dstNode 2 (.rsp gr) else s1

/-- Set of the snoop filter that a line belongs to (R232; log 23). -/
def snoopSet (line : Nat) : Nat := line % 4 + 4 * (line / 2 ^ 8 % 256)

/-- The cache a read fills: the stream cache of a tile, or 64 for the management complex; whole-line reads only (R232). -/
def fillHolder (q : Req) : Option Nat :=
  if q.op = .rd ∧ q.len = 64 then
    if q.srcNode < 64 ∧ q.srcPort = 4 then some q.srcNode
    else if 64 ≤ q.srcNode ∧ q.srcPort = 0 then some 64 else none
  else none

/-- Entries of the snoop filter in the set of a line, oldest first. -/
def Chan.setOf (c : Chan) (line : Nat) : List Snooped := c.snoop.filter fun e => snoopSet e.line == snoopSet line

/-- Some transaction waits for INV_ACK of a line. -/
def Chan.invalidating (c : Chan) (line : Nat) : Bool := c.held.any fun x => !x.acks.isEmpty && x.inv.contains line

/-- What a fill of a line needs in the filter (R232): none while every way of a full set is being invalidated; else
whether it keeps a free way, and the entry it evicts. -/
def Chan.place (c : Chan) (line : Nat) : Option (Bool × List Snooped) :=
  let set := c.setOf line
  let kept := (c.held.filter fun x => x.way && snoopSet (x.req.addr / 64) == snoopSet line).length
  if set.any fun e => e.line == line then some (false, [])
  else if set.length + kept < 8 then some (true, [])
  else match set.find? fun e => !c.invalidating e.line with
    | some e => some (false, [e])
    | none => none

/-- A transaction earlier in the order than the one in slot `i` and to the same line satisfies a test. -/
def Chan.earlier (c : Chan) (x : Txn) (p : Txn → Bool) : Bool :=
  (c.held.takeWhile fun y => !(y == x)).any fun y => y.req.addr / 64 == x.req.addr / 64 && p y

/-- The invalidations a transaction begins with, once it may (R195, R232): whether it keeps a way, and the entries whose
holders are sent INV. A write waits for its data and for earlier reads of its line, whose fills the filter must still see;
a read waits for every earlier transaction of its line, and while its line is being invalidated. -/
def Chan.begins (c : Chan) (x : Txn) : Option (Bool × List Snooped) :=
  let line := x.req.addr / 64
  if x.req.op = .rd then
    if c.earlier x (fun _ => true) || c.invalidating line then none
    else match fillHolder x.req with
      | some _ => c.place line
      | none => some (false, [])
  else if x.awaitData || c.earlier x (fun y => y.req.op == .rd) then none
  else some (false, c.snoop.filter fun e => e.line == line)

/-- Sends INV to every holder of a line (R232). Its URG, for which R213 gives the controller no base, is 4
(DESIGN CHOICE; log 99); the INV_ACK carries it on. -/
def State.sendInv (s : State) (g : Nat) (e : Snooped) : State :=
  let t := channelTile g
  s.forEach e.holders fun s h =>
    let p : Snp := { ack := false, urg := 4, dstNode := if h < 64 then h else ioNode t, dstPort := if h < 64 then 4 else 0,
                     srcNode := t, line := e.line }
    s.inject t 2 (.snp p)

/-- What the fields of a DRAM address name (R187): channel, pseudo channel, bank, row, column, byte of the burst. The row
of a 32 GiB part has one bit less, which its addresses leave 0 (R188). -/
structure DramPlace where
  chan : Nat
  pseudo : Nat
  bank : Nat
  row : Nat
  col : Nat
  byte : Nat
  deriving DecidableEq, Repr

def dramPlace (a : Nat) : DramPlace :=
  { chan := dramChannel a, pseudo := a / 2 ^ 5 % 2, bank := a / 2 ^ 17 % 32, row := a / 2 ^ 22 % 2 ^ 14,
    col := a / 2 ^ 14 % 8 * 4 + a / 2 ^ 6 % 4, byte := a % 32 }

/-- The address that a place names. -/
def DramPlace.addr (p : DramPlace) : Nat :=
  let rest := 2 ^ 22 * p.row + 2 ^ 17 * p.bank + 2 ^ 14 * (p.col / 4) + 2 ^ 6 * (p.col % 4) + 2 ^ 5 * p.pseudo + p.byte
  2 ^ 8 * (p.chan ^^^ dramChannel rest) + rest

/-- The first byte of the row that holds an address: the name of the row. -/
def rowOf (a : Nat) : Nat := ({ dramPlace a with col := 0, byte := 0 } : DramPlace).addr

/-- A row has returned a correctable error in the latest 24 hours: `ceSeen` holds one more than its tick (R388). -/
def State.seenToday (s : State) (row : Nat) : Bool :=
  let t := mapGet (fun _ => 0) s.health.ceSeen row
  decide (0 < t ∧ s.tb < t + 86_400_000_000 * s.usTicks)

/-- A DRAM row that has returned an uncorrectable error, or a second correctable one in 24 hours, waits for a repair; REPAIR_DUE, with
the address that erred, where a RUNNING region owns its granule (R388, R405). -/
def State.rowError (s : State) (a e : Nat) : State :=
  let h := s.health
  let row := rowOf a
  if e = 2 ∨ s.seenToday row = true then
    if h.rows.contains row then s
    else
      let s1 : State := { s with health := { h with rows := h.rows ++ [row] } }
      let o := s.ownerOf a
      if o < 16 ∧ s.rgnState o = 2 then s1.event 9 o (bytesOfNat 1 1 ++ zeros 7 ++ bytesOfNat 8 a) else s1
  else { s with health := { h with ceSeen := mapSet (fun _ => 0) h.ceSeen row (s.tb + 1) } }

/-- An error met in DRAM: counted and recorded, the corrected word written back (R201 to R203). -/
def State.dramError (s : State) (g a e : Nat) : State :=
  let t := channelTile g
  if e = 0 then s
  else
    let s1 := s.count (aDramEcc t) (if e = 1 then 0 else 16) 16
    let s2 := (s1.setReg (aDramErraddr t) (BitVec.ofNat 64 (a / 8 * 8 + 2 ^ 48 * (e - 1)))).rowError (a / 8 * 8) e
    if e = 1 then s2.setEcc a 0 else s2

/-- The words, as address and length, that an access of `n` bytes at `a` touches. -/
def wordsOf : Nat → Nat → Nat → List (Nat × Nat)
  | 0, _, _ => []
  | fuel + 1, a, n => if n = 0 then [] else
      let k := min (8 - a % 8) n
      (a, k) :: wordsOf fuel (a + k) (n - k)

/-- Reads DRAM with its errors: the data, whether any of it is poisoned, and the state (R201, R202). -/
def State.dramRead (s : State) (g a n : Nat) : State × List Byte × Bool :=
  let ws := wordsOf 9 a n
  let bad := ws.any fun w => s.eccOf w.1 == 2
  (s.forEach ws fun s w => s.dramError g w.1 (s.eccOf w.1), s.bytes a n, bad)

/-- Writes DRAM: whole words at once, parts of words as a read and a write; a part whose read step meets an
uncorrectable error is not written (R195, R202). Answers whether every part was performed. -/
def State.dramWrite (s : State) (g a : Nat) (data : List Byte) (poison : Bool) : State × Bool :=
  (wordsOf 9 a data.length).foldl (fun (r : State × Bool) w =>
    let d := sub data (w.1 - a) w.2
    if w.2 < 8 then
      let e := r.1.eccOf w.1
      let s1 := r.1.dramError g w.1 e
      if e = 2 then (s1, false) else (s1.store w.1 d poison, r.2)
    else (r.1.store w.1 d poison, r.2)) (s, true)

/-- A write of whole 64-bit words, acknowledged before it is performed (R195). -/
def Txn.whole (x : Txn) : Bool := x.req.op != .rd && x.req.addr % 8 == 0 && x.req.len % 8 == 0

/-- A write performed in the memory of its channel: whether every part of it was. -/
def State.txnWrite (s : State) (g : Nat) (x : Txn) : State × Bool :=
  (s.markPages x.req.addr x.data.length).dramWrite g x.req.addr x.data x.poison

/-- Writes acknowledged before and now first of their line are performed, in order (R195). -/
def State.settleAcked (s : State) (g : Nat) : State :=
  let r := (s.chan g).held.foldl (fun (r : List Txn × State) y =>
    if y.acked && !(r.1.any fun z => z.req.addr / 64 == y.req.addr / 64) then (r.1, (r.2.txnWrite g y).1)
    else (r.1 ++ [y], r.2)) ([], s)
  r.2.setChan g { r.2.chan g with held := r.1 }

/-- The filter once a read has filled a cache: its holder's presence bit set, in the line's entry or a new one (R232). -/
def Chan.filled (c : Chan) (q : Req) : List Snooped :=
  let line := q.addr / 64
  match fillHolder q with
  | none => c.snoop
  | some h =>
    if c.snoop.any fun e => e.line == line then
      c.snoop.map fun e => if e.line == line && !e.holders.contains h then { e with holders := e.holders ++ [h] } else e
    else c.snoop ++ [{ line, holders := [h] }]

/-- An access performed at the stack and answered; its slot is free. -/
def State.dramPerform (s : State) (g : Nat) (x : Txn) : State :=
  let c := s.chan g
  let held := c.held.filter fun y => !(y == x)
  if x.req.op = .rd then
    let (s1, data, bad) := s.dramRead g x.req.addr x.req.len
    ((s1.setChan g { c with held, snoop := c.filled x.req }).answer x.req 0 data bad).settleAcked g
  else
    let (s1, ok) := s.txnWrite g x
    ((s1.setChan g { c with held }).answer x.req 0 [] (!ok)).settleAcked g

/-- A transaction of a controller (R194, R195, R199, R202, R232): first the invalidations it needs; with every
acknowledgement in, the answer of a write of whole words that holds its place, or the access and its answer, once no
earlier transaction to the line is left and no refresh is in progress. A command/address parity error repeats the
command (R184). -/
def State.dramTransaction (s : State) (g i : Nat) : State :=
  let c := s.chan g
  match c.held.find? fun x => x.inSlot i with
  | none => s
  | some x =>
    if !x.inved then match c.begins x with
      | none => s
      | some (way, inv) =>
        let acks := inv.flatMap fun e => e.holders.map fun h => 128 * e.line + h
        let mark := fun y => if y == x then { y with inved := true, acks, inv := inv.map (·.line), way } else y
        (s.setChan g { c with held := c.held.map mark }).forEach inv fun s e => s.sendInv g e
    else if !x.acks.isEmpty then s
    else if c.refreshing || c.earlier x fun _ => true then
      if x.whole then
        (s.setChan g { c with held := c.held.map fun y => if y == x then { y with acked := true } else y }).answer x.req 0 [] false
          |>.settleAcked g
      else s
    else if 0 < c.caErr then (s.setChan g { c with caErr := c.caErr - 1 }).count (aDramEcc (channelTile g)) 32 16
    else s.dramPerform g x

/-- A cache has acknowledged an invalidation of a line (R232): the first transaction that waits for it waits no more; with
its last one, the entries it invalidated leave the filter. -/
def State.invAck (s : State) (g line holder : Nat) : State :=
  let c := s.chan g
  match c.held.find? fun y => y.acks.contains (128 * line + holder) with
  | some x =>
    let acks := x.acks.erase (128 * line + holder)
    let held := c.held.map fun y => if y == x then { y with acks } else y
    s.setChan g { c with held, snoop := if acks.isEmpty then c.snoop.filter fun e => !x.inv.contains e.line else c.snoop }
  | none => s

/- Refresh (R198, R199). -/

/-- Some region's refresh grant is open (R122). -/
def State.anyGrant (s : State) : Bool := s.rgns.any fun e => e.2.grant

def State.refPending (s : State) (g : Nat) : Nat := s.fldOf (aDramRef (channelTile g)) 48 4

/-- Begins one pending refresh, counted in the field at bit `lo` of DRAM_REF. -/
def State.beginRefresh (s : State) (g lo : Nat) : State :=
  let a := aDramRef (channelTile g)
  let s1 := (s.count a lo 16).setFld a 48 4 (s.refPending g - 1)
  s1.setChan g { s1.chan g with refreshing := true, owed := (s1.chan g).owed - 1 }

/-- An obligation falls due (R198, R199): begun at once while a grant is open and no refresh is in progress, else pending,
8 at most. -/
def State.refreshDue (s : State) (g : Nat) : State :=
  let s1 := s.setFld (aDramRef (channelTile g)) 48 4 (min 8 (s.refPending g + 1))
  if s1.anyGrant && !(s1.chan g).refreshing then s1.beginRefresh g 0 else s1

/-- A grant opens: every controller begins every refresh it then has pending, one after another, the first of them now
(R122, R199). -/
def State.grantOpens (s : State) : State :=
  s.forEach (List.range 64) fun s g =>
    if 0 < s.refPending g then
      let s1 := s.setChan g { s.chan g with owed := s.refPending g }
      if (s.chan g).refreshing then s1 else s1.beginRefresh g 0
    else s

def State.idleRefresh (s : State) (g : Nat) : State :=
  let c := s.chan g
  if c.held.isEmpty && decide (0 < s.refPending g) && !c.refreshing then s.beginRefresh g 16 else s

def State.forcedRefresh (s : State) (g : Nat) : State :=
  if s.refPending g == 8 && !s.anyGrant && !(s.chan g).refreshing then s.beginRefresh g 32 else s

/-- A refresh ends; while a grant is open, or one began with more pending than have been begun since, the next one follows
(R199). -/
def State.refreshEnd (s : State) (g : Nat) : State :=
  let c := s.chan g
  if c.refreshing then
    let s1 := s.setChan g { c with refreshing := false }
    if (s1.anyGrant || decide (0 < c.owed)) && decide (0 < s1.refPending g) then s1.beginRefresh g 0 else s1
  else s

/- Scrub, zero fill, temperature. -/

/-- Words of one channel. -/
def channelWords (p : Part) : Nat := if p.dram64 then 2 ^ 27 else 2 ^ 26

/-- Address of word `i` of channel `g` (R187). -/
def channelWord (g i : Nat) : Nat :=
  let blk := i / 32
  2 ^ 14 * blk + 2 ^ 8 * (g ^^^ (blk % 64) ^^^ (blk / 64 % 64) ^^^ (blk / 4096 % 64)) + 8 * (i % 32)

/-- The patrol scrub reads the next word of an idle channel, and writes back what it corrects (R201, R202). -/
def State.scrub (s : State) (g : Nat) : State :=
  let c := s.chan g
  if c.held.isEmpty && c.zeroed && !c.refreshing then
    let a := channelWord g c.scrub
    (s.setChan g { c with scrub := (c.scrub + 1) % channelWords s.part }).dramError g a (s.eccOf a)
  else s

/-- A controller has written zero with valid check bits to its whole channel, and begins to serve (R185). -/
def State.dramZero (s : State) (g : Nat) : State :=
  let c := s.chan g
  if c.zeroed then s
  else
    let mine := fun a => decide (a < 0x10_0000_0000) && dramChannel a == g
    let s1 : State := { s with mem := mapDropIf mine s.mem, ecc := mapDropIf mine s.ecc }
    s1.setChan g { c with zeroed := true }

/-- A stack's temperature is read: HOT of its channels follows (R184, R198, R200). -/
def State.stackTemp (s : State) (stack : Nat) (celsius : Int) : State :=
  let s1 : State := { s with stackTemps := mapSet (fun _ => 0) s.stackTemps stack celsius }
  s1.forEach (List.range 16) fun s c =>
    s.setBit (aDramRef (channelTile (16 * stack + c))) 52 (decide (celsius > 85))

end Sys2Proof.Machine
end

