-- ==== Sys2Proof/Machine/Pcs.lean ====
section
/-! DEFINITION. 64b/66b coding (R308, R311, R327): the self-synchronising scrambler x^58 + x^39 + 1 of IEEE 802.3 Clause 49,
and that clause's block formats between the 64 data and 8 control bits of the PCS client interface (R260) and a block.
The rules name the clause and do not repeat it: its codes are taken from the standard (PRESUMED; log 101). -/

namespace Sys2Proof.Machine

/- The scrambler: bit k of its register is the bit sent k + 1 places before. -/

/-- The register's contribution to the next bit. -/
def scrBit (r : Nat) : Bool := r.testBit 38 != r.testBit 57

/-- A bit sent pushed into the register. -/
def scrPush (r : Nat) (b : Bool) : Nat := (2 * r + b2n b) % 2 ^ 58

/-- `n` bits of `x` scrambled, the least significant first: the register and the bits sent. -/
def scramble : Nat → Nat → Nat → Nat × Nat
  | 0, r, _ => (r, 0)
  | n + 1, r, x =>
    let b := (x % 2 == 1) != scrBit r
    let q := scramble n (scrPush r b) (x / 2)
    (q.1, b2n b + 2 * q.2)

/-- `n` received bits descrambled. -/
def descramble : Nat → Nat → Nat → Nat × Nat
  | 0, r, _ => (r, 0)
  | n + 1, r, x =>
    let b := x % 2 == 1
    let q := descramble n (scrPush r b) (x / 2)
    (q.1, b2n (b != scrBit r) + 2 * q.2)

/- Clause 49 block formats. -/

/-- What a block's payload holds after its type, in bit order: an octet, a 7-bit control code, a 4-bit ordered-set code, the
start or the terminate character of a place, filling. -/
inductive PcsField where
  | d (i : Nat)
  | c (i : Nat)
  | o (i : Nat)
  | s (i : Nat)
  | t (i : Nat)
  | pad (n : Nat)
  deriving DecidableEq, Repr

/-- A block with the terminate character in place `k`. -/
def pcsTerminate (k : Nat) : List PcsField :=
  (List.range k).map .d ++ [.t k, .pad (7 - k)] ++ (List.range (7 - k)).map fun i => .c (k + 1 + i)

/-- The control block formats by their type. -/
def pcsFormats : List (Nat × List PcsField) :=
  [(0x1E, [.c 0, .c 1, .c 2, .c 3, .c 4, .c 5, .c 6, .c 7]),
   (0x2D, [.c 0, .c 1, .c 2, .c 3, .o 4, .d 5, .d 6, .d 7]),
   (0x33, [.c 0, .c 1, .c 2, .c 3, .pad 4, .s 4, .d 5, .d 6, .d 7]),
   (0x66, [.d 1, .d 2, .d 3, .o 0, .pad 4, .s 4, .d 5, .d 6, .d 7]),
   (0x55, [.d 1, .d 2, .d 3, .o 0, .o 4, .d 5, .d 6, .d 7]),
   (0x78, [.s 0, .d 1, .d 2, .d 3, .d 4, .d 5, .d 6, .d 7]),
   (0x4B, [.d 1, .d 2, .d 3, .o 0, .c 4, .c 5, .c 6, .c 7])] ++
  [0x87, 0x99, 0xAA, 0xB4, 0xCC, 0xD2, 0xE1, 0xFF].mapIdx fun k ty => (ty, pcsTerminate k)

/-- Control characters and their 7-bit codes. -/
def pcsCodes : List (Nat × Nat) :=
  [(0x07, 0x00), (0xFE, 0x1E), (0x1C, 0x2D), (0x3C, 0x33), (0x7C, 0x4B), (0xBC, 0x55), (0xDC, 0x66), (0xF7, 0x78)]

/-- Ordered-set characters and their 4-bit codes. -/
def pcsSets : List (Nat × Nat) := [(0x9C, 0x0), (0x5C, 0xF)]

/-- A character of a transfer: control flag and octet. -/
abbrev PcsChar := Bool × Nat

/-- The place, width and code that a field gives a character; none where the character does not fit the field. -/
def PcsField.code (ch : Nat → PcsChar) : PcsField → Option (Nat × Nat)
  | .d i => if (ch i).1 then none else some (8, (ch i).2)
  | .c i => if (ch i).1 then (pcsCodes.find? fun e => e.1 == (ch i).2).map fun e => (7, e.2) else none
  | .o i => if (ch i).1 then (pcsSets.find? fun e => e.1 == (ch i).2).map fun e => (4, e.2) else none
  | .s i => if ch i = (true, 0xFB) then some (0, 0) else none
  | .t i => if ch i = (true, 0xFD) then some (0, 0) else none
  | .pad n => some (n, 0)

/-- The fields packed, the first lowest. -/
def pcsPack (ch : Nat → PcsChar) : List PcsField → Option Nat
  | [] => some 0
  | f :: rest => match f.code ch, pcsPack ch rest with
    | some (w, x), some y => some (x + 2 ^ w * y)
    | _, _ => none

/-- Character of a place of a transfer of 64 data bits and 8 control bits. -/
def pcsChar (ctl : Nat) (data : W64) (i : Nat) : PcsChar := (ctl.testBit i, fld data (8 * i) 8)

/-- The block of eight error characters. -/
def pcsErrorBlock : Nat := 0x1E + 2 ^ 8 * ((List.range 8).foldl (fun v i => v + 0x1E * 2 ^ (7 * i)) 0)

/-- A transfer as a block: sync header and payload. A transfer of no format goes out as an error block. -/
def pcsEncode (ctl : Nat) (data : W64) : Nat × W64 :=
  if ctl % 256 = 0 then (1, data)
  else (2, BitVec.ofNat 64 ((pcsFormats.findSome? fun f =>
    (pcsPack (pcsChar ctl data) f.2).map fun x => f.1 + 2 ^ 8 * x).getD pcsErrorBlock))

/-- The characters that packed fields spell; none where a code is none of the standard's. -/
def pcsUnpack : Nat → List PcsField → Option (List (Nat × PcsChar))
  | _, [] => some []
  | x, f :: rest =>
    let r : Option (Nat × List (Nat × PcsChar)) := match f with
      | .d i => some (8, [(i, false, x % 256)])
      | .c i => (pcsCodes.find? fun e => e.2 == x % 128).map fun e => (7, [(i, true, e.1)])
      | .o i => (pcsSets.find? fun e => e.2 == x % 16).map fun e => (4, [(i, true, e.1)])
      | .s i => some (0, [(i, true, 0xFB)])
      | .t i => some (0, [(i, true, 0xFD)])
      | .pad n => some (n, [])
    match r with
    | some (w, l) => (pcsUnpack (x / 2 ^ w) rest).map fun m => l ++ m
    | none => none

/-- A transfer of eight error characters, and one of two local-fault ordered sets: control bits and data. -/
def pcsErrors : Nat × W64 := (0xFF, 0xFEFE_FEFE_FEFE_FEFE)
def pcsLocalFault : Nat × W64 := (0x11, 0x0100_009C_0100_009C)

/-- Eight idle characters. -/
def pcsIdle : Nat × W64 := (0xFF, 0x0707_0707_0707_0707)

/-- A descrambled block as a transfer. A block of no format is eight error characters. -/
def pcsDecode (sync : Nat) (payload : W64) : Nat × W64 :=
  if sync = 1 then (0, payload)
  else if sync = 2 then
    match (pcsFormats.find? fun f => f.1 == fld payload 0 8).bind fun f => pcsUnpack (payload.toNat / 2 ^ 8) f.2 with
    | some l => (l.foldl (fun n e => n + 2 ^ e.1 * b2n e.2.1) 0, BitVec.ofNat 64 (l.foldl (fun n e => n + 2 ^ (8 * e.1) * e.2.2) 0))
    | none => pcsErrors
  else pcsErrors

end Sys2Proof.Machine
end

