-- ==== Sys2Proof/Machine/Glue.lean ====
section
/-! DEFINITION. Clock trees, DCOs, GPIO pins and the ports of the glue fabric (R246 to R272): who may write a pin, what drives
its pad, the judging of a DCO, and what a CLK_GLUE edge does. -/

namespace Sys2Proof.Machine

/- Pads (R264, R265, R267 to R271). -/

def State.pad (s : State) (p : Nat) : Pin := mapGet (fun _ => {}) s.glue.pads p
def State.setPad (s : State) (p : Nat) (v : Pin) : State :=
  { s with glue := { s.glue with pads := mapSet (fun _ => {}) s.glue.pads p v } }

def State.pinFunc (s : State) (p : Nat) : Nat := s.fldOf (aPinCfg p) 0 3
def State.pinOwner (s : State) (p : Nat) : Nat := s.fldOf (aPinCfg p) 4 3

/-- The pin is bound as an output of a speed bridge, and which. -/
def State.emulOut (s : State) (p : Nat) : Option Nat :=
  if s.pinFunc p = 6 ∧ s.bitOf (aPinCfg p) 36 then some (s.fldOf (aPinCfg p) 32 4) else none

/-- The pin is frozen (R269). -/
def State.pinFrozen (s : State) (p : Nat) : Bool :=
  s.glue.live &&
  (if s.pinFunc p = 1 then s.glueFenced (p / 32)
   else match s.emulOut p with
    | some m => s.bridgeInert m
    | none => false)

/-- The pad of a pin keeps what it has: frozen, between a switch edge and the next, or, while the device runs, bound anew by a
region that has not been released (R268 to R270). While it does not run every pad is in its safe state (R291). -/
def State.padHolds (s : State) (p : Nat) : Bool :=
  s.pinFrozen p || (s.glue.live && ((s.pad p).pending || s.glue.waiting.any fun e => e.2 == p))

/-- The functions whose output moves with the clock: GLUE, UART, SPI, I2C, DCO and TEST. A pin switched to one takes its
output at E + 1 (R268). -/
def clockedFunc (f : Nat) : Bool := decide ((1 ≤ f ∧ f ≤ 5) ∨ f = 7)

/-- The function of a pin is a clocked output: every clocked one but RXD and CTS (R264). -/
def State.clockedOut (s : State) (p : Nat) : Bool :=
  clockedFunc (s.pinFunc p) && !(s.pinFunc p == 2 && s.fldOf (aPinCfg p) 24 6 % 2 == 1) && s.pinOwner p != 0

/-- Output level and enable that a pin's function gives its pad (R264, R265); what a serial block, a running DCO or the
test function drives is free (log 7). -/
def State.padDrive (s : State) (p : Nat) : Bool × Bool :=
  let f := s.pinFunc p
  let sel := s.fldOf (aPinCfg p) 24 6
  let free := Config.glueBit s.free (4096 + 2 * p)
  let freeOe := Config.glueBit s.free (4097 + 2 * p)
  if s.pinOwner p = 0 then (false, false)
  else match f with
  | 0 => (s.bitOf (aOut (p / 32)) (p % 32), s.bitOf (aOe (p / 32)) (p % 32))
  | 1 => (s.sink (p / 32) (.pinOut (p % 32)), s.sink (p / 32) (.pinOe (p % 32)))
  | 2 => (free, sel == 0 || sel == 2)
  | 3 => (free, decide (sel ≤ 4) || freeOe)
  | 5 => (s.dcoRuns (sel % 8) && free, true)
  | 6 => match s.emulOut p with
    | some m => ((s.br m).brOut.getLsbD sel, true)
    | none => (false, false)
  | _ => (free, freeOe)

/-- What a boundary-scan instruction in force gives a pad (R432, R433): EXTEST, its variants and CLAMP the pin's
boundary-scan cell, HIGHZ nothing. Cell `p` stands for pin `p` (log 25). -/
def State.tapDrive (s : State) (p : Nat) : Option (Bool × Bool) :=
  if s.tap.ir = 7 then some (false, false)
  else if 3 ≤ s.tap.ir ∧ s.tap.ir ≤ 6 then
    some (match s.tap.bsr.find? fun c => c.1 == p with
      | some c => c.2
      | none => (false, false))
  else none

/-- Every pad is latched to the safe state of its PULL: HREFCLK has been lost and the release point has not come (R270,
R376). -/
def State.padsLatched (s : State) : Bool := !s.pwr.href || !s.pwr.padsReleased

/-- The pad of a pin takes what a boundary-scan instruction gives it, else what its function gives it, or its safe state
while the pads are latched or not live (R268, R270, R271, R376, R433). -/
def State.drivePad (s : State) (p : Nat) : State :=
  let x := { s.pad p with pending := false }
  if s.padsLatched then s.setPad p { x with out := false, oe := false }
  else
  let x := { x with pull := s.fldOf (aPinCfg p) 12 2 }
  if s.fldOf (aBankStat (p / 32)) 0 2 = 0 then s.setPad p { x with out := false, oe := false }
  else match s.tapDrive p with
  | some (o, e) => s.setPad p { x with out := o, oe := e }
  | none =>
  if !s.glue.live then s.setPad p { x with out := false, oe := false }
  else
    let (o, e) := s.padDrive p
    let od := s.bitOf (aPinCfg p) 14 || s.pinFunc p == 4
    s.setPad p { x with out := o, oe := e && !(od && o) }

/-- Every pad that is not frozen takes what its function gives it. -/
def State.drivePads (s : State) : State :=
  (s.forEach (List.range 256) fun s p => if s.padHolds p then s else s.drivePad p).draw

/-- The pads bound to bridge `m` take its BR_OUT (R134, R257). -/
def State.driveBridge (s : State) (m : Nat) : State :=
  s.forEach (List.range 256) fun s p => if s.emulOut p = some m ∧ s.padHolds p = false then s.drivePad p else s

/-- The bank of a pin has its supply (R271). -/
def State.bankOn (s : State) (p : Nat) : Bool := s.fldOf (aBankStat (p / 32)) 0 2 != 0

/-- Level at the pad of a pin: its own while it drives, else the level outside. -/
def State.padLevel (s : State) (p : Nat) : Bool :=
  let x := s.pad p
  s.bankOn p && (if x.oe then x.out else x.level)

/-- A pad level changes outside (R267). -/
def State.pinInput (s : State) (p : Nat) (level : Bool) : State :=
  if p < 256 then s.setPad p { s.pad p with level } else s

/-- The input path of a pin over one CLK_GLUE edge (R267): the pad into the first flop, the first into the second, and the
second into IN once it has differed from IN for FILT cycles. -/
def State.inputEdge (s : State) (p : Nat) : State :=
  let x := s.pad p
  let n := s.fldOf (aPinCfg p) 16 8
  let cnt := if x.s2 != s.pinIn p then x.cnt + 1 else 0
  let now := if s.bankOn p = false then some false
    else if n = 0 then some x.s1
    else if x.s2 != s.pinIn p ∧ n ≤ cnt then some x.s2
    else none
  let s1 := s.setPad p { x with s1 := s.padLevel p, s2 := s.bankOn p && x.s1, cnt := if now.isSome then 0 else cnt }
  match now with
  | some b => s1.setBit (aIn (p / 32)) (p % 32) b
  | none => s1

/-- An edge would change the input path of a pin, or the pad waits for the next edge. -/
def State.pinRestless (s : State) (p : Nat) : Bool :=
  let x := s.pad p
  x.pending || s.padLevel p != x.s1 || x.s1 != x.s2 || x.s2 != s.pinIn p

/-- A bank's supply appears or goes (R271). -/
def State.bankSupply (s : State) (bank vdet : Nat) : State :=
  if bank < 8 then
    let s1 := s.setFld (aBankStat bank) 0 2 vdet
    (if vdet % 4 = 0 then s1.setReg (aIn bank) 0 else s1).drivePads
  else s

/-- What decides which function has a pad: FUNC, OWNER, SEL, BRIDGE and EMUL_OUT. -/
def pinBinding (v : W64) : W64 := v &&& (bits 2 0 ||| bits 6 4 ||| bits 29 24 ||| bits 36 32)

/-- The pad of a pin at the switch edge E (R268): it takes a GPIO or EMUL output or goes to hi-Z at E, and waits for E + 1
where the new function is a clocked output. -/
def State.switchPad (s : State) (p : Nat) : State :=
  if s.padHolds p then s
  else if s.glue.live ∧ s.bankOn p = true ∧ s.padsLatched = false ∧ (s.tapDrive p).isNone ∧ s.clockedOut p then
    s.setPad p { s.pad p with pending := true, pull := s.fldOf (aPinCfg p) 12 2 }
  else s.drivePad p

/-- A change of SLEW, DRIVE, PULL, OD or FILT alone moves no output level (R268): a pad with OD stops driving high, but for a
frozen one (R269). -/
def State.adjustPad (s : State) (p : Nat) : State :=
  let x := s.pad p
  if s.padsLatched then s
  else if s.padHolds p then s.setPad p { x with pull := s.fldOf (aPinCfg p) 12 2 }
  else if clockedFunc (s.pinFunc p) then
    s.setPad p { x with pull := s.fldOf (aPinCfg p) 12 2, oe := x.oe && !(s.bitOf (aPinCfg p) 14 && x.out) }
  else s.drivePad p

/-- Both synchroniser flops take the pin's IN value, and the filter counts anew (R268). -/
def State.loadFlops (s : State) (p : Nat) : State :=
  s.setPad p { s.pad p with s1 := s.pinIn p, s2 := s.pinIn p, cnt := 0 }

/-- PIN_CFG of a pin written by the firmware: the switch edge of R268. At a change of FUNC or OWNER both flops take IN, and
the filter counts anew, as it does at a change of FILT. -/
def State.setPinCfg (s : State) (p : Nat) (v : W64) : State :=
  let old := s.reg (aPinCfg p)
  let w := v &&& (bits 2 0 ||| bits 6 4 ||| bits 14 8 ||| bits 29 16 ||| bits 36 32)
  let s1 := s.setReg (aPinCfg p) (if fld w 0 3 = 4 then w ||| bits 14 14 else w)
  let s2 := if fld old 0 7 ≠ fld w 0 7 then s1.loadFlops p
    else if fld old 16 8 ≠ fld w 16 8 then s1.setPad p { s1.pad p with cnt := 0 } else s1
  if pinBinding old = pinBinding w then s2.adjustPad p else (s2.switchPad p).draw

/-- A pin given back: OWNER NONE, FUNC GPIO, OE 0 (R272, R299). -/
def State.freePin (s : State) (p : Nat) : State :=
  let v := s.reg (aPinCfg p)
  (s.setBit (aOe (p / 32)) (p % 32) false).setPinCfg p (putFld (putFld (putFld v 0 3 0) 4 3 0) 24 13 0)

/- Masked writes (R265, R266). -/

/-- The writer is the pin's owner in the view it writes through. -/
def ownerWrites (owner : Nat) (o : Origin) (secure : Bool) : Bool :=
  match owner with
  | 1 => decide (o = .host) && !secure
  | 2 => decide (o = .mgmt) && !secure
  | 5 => decide (o = .mgmt) && secure
  | 6 => decide (o = .jtag) && !secure
  | _ => false

/-- One refused bit counted and recorded in the IGN register of the view, or of the secure alias for a SECURE pin. -/
def State.ignCount (s : State) (secure : Bool) (o : Origin) (p : Nat) : State :=
  let a := if secure || s.pinOwner p == 5 then aSecIgn (p / 32) else aIgn (p / 32)
  let s1 := s.count a 0 16
  s1.setReg a (putFld (putFld (s1.reg a) 16 5 (originCode o)) 21 5 (p % 32))

/-- A masked write of 16 output or output-enable bits from pin `lo` of a bank. -/
def State.maskedWrite (s : State) (o : Origin) (secure oe : Bool) (bank lo : Nat) (v : W32) : State :=
  let reg := if oe then aOe bank else aOut bank
  (s.forEach (List.range 16) fun s j =>
    let p := 32 * bank + lo + j
    if v.getLsbD (16 + j) then
      if ownerWrites (s.pinOwner p) o secure then s.setBit reg (lo + j) (v.getLsbD j) else s.ignCount secure o p
    else s).drivePads

/- Clock trees (R246, R247, R249). -/

/-- The source of a tree runs: CLK_GLUE and its half always, a DCO while enabled, a reserved code never. -/
def State.srcRuns (s : State) (src : Nat) : Bool :=
  decide (src < 2) || (decide (src < 10) && s.bitOf (aDcoCfg (src - 2)) 0)

/-- SRC of a tree written: the switch completes at once, or waits while the old source has stopped. SWITCH_FORCED stays until
1 is written to it, over a later switch that is not forced too (DESIGN CHOICE, log 108). -/
def State.gclkSel (s : State) (n : Nat) (v : W64) : State :=
  if 1 ≤ n ∧ n < 8 then
    let old := s.reg (aGclkSel n)
    let w := if bit v 4 then putFld old 4 1 0 else old
    let s1 := s.setReg (aGclkSel n) (putFld w 0 4 (fld v 0 4))
    if fld v 0 4 = fld old 0 4 ∨ s.srcRuns (fld old 0 4) then s1
    else { s1 with glue := { s1.glue with switching := s1.glue.switching.filter (· != n) ++ [n] } }
  else s

/-- 64 cycles of the new source have passed with the old one stopped (R247, R371). -/
def State.switchForced (s : State) (n : Nat) : State :=
  if s.glue.switching.contains n && s.srcRuns (s.fldOf (aGclkSel n) 0 4) then
    ({ s with glue := { s.glue with switching := s.glue.switching.filter (· != n) } }).setBit (aGclkSel n) 4 true
  else s

/- DCOs (R250 to R253). -/

/-- A value DCO_CFG may take. -/
def dcoInRange (v : W64) : Bool :=
  decide (5000 ≤ fld v 3 20 ∧ fld v 3 20 ≤ 400000 ∧ 50 ≤ fld v 23 11 ∧ fld v 23 11 ≤ 2000)

/-- STABLE and RUN cleared: judging starts anew. -/
def State.dcoRestart (s : State) (k : Nat) : State :=
  s.setReg (aDcoStat k) (putFld (putFld (s.reg (aDcoStat k)) 0 1 0) 2 2 0)

/-- The errors of a DCO's latest windows, latest first, at most 16 (R252). -/
def State.errs (s : State) (k : Nat) : List Int := mapGet (fun _ => []) s.glue.dcoErrs k
def State.setErrs (s : State) (k : Nat) (l : List Int) : State :=
  { s with glue := { s.glue with dcoErrs := mapSet (fun _ => []) s.glue.dcoErrs k l } }

/-- Fine code and coarse setting of a DCO (R250, R385; log 109). -/
def State.fine (s : State) (k : Nat) : Int := mapGet (fun _ => 0) s.glue.dcoFine k
def State.coarse (s : State) (k : Nat) : Int := mapGet (fun _ => 0) s.glue.dcoCoarse k

/-- The fine code, held within its range of ±1.5 %. -/
def State.setFine (s : State) (k : Nat) (v : Int) : State :=
  { s with glue := { s.glue with dcoFine := mapSet (fun _ => 0) s.glue.dcoFine k (max (-15000) (min 15000 v)) } }
def State.setCoarse (s : State) (k : Nat) (v : Int) : State :=
  { s with glue := { s.glue with dcoCoarse := mapSet (fun _ => 0) s.glue.dcoCoarse k v } }

/-- DCO_CFG written with values in range: a change of FREQ_KHZ or of EN starts the judging anew. Under a spread reference
the firmware sets SPREAD_REF of every DCO it enables (R252). -/
def State.dcoCfg (s : State) (k : Nat) (v : W64) : State :=
  let old := s.reg (aDcoCfg k)
  let w := v &&& bits 33 0
  let s1 := s.setReg (aDcoCfg k) (if bit w 0 && s.bitOf aMastStat 4 then putFld w 2 1 1 else w)
  (if fld old 3 20 ≠ fld v 3 20 ∨ bit old 0 ≠ bit v 0 then
    (((s1.dcoRestart k).setErrs k []).setFine k 0).setCoarse k 0 else s1).drivePads

/-- A window is in tolerance: its own error, or under SPREAD_REF the mean over the latest 16 windows, is no more than TOL_PPM
(R250, R252; log 102). -/
def inTolerance (spread : Bool) (tol : Nat) (errs : List Int) : Bool :=
  let l := if spread then errs else errs.take 1
  decide ((l.foldl (· + ·) 0).natAbs ≤ tol * l.length)

/-- The error that the trim loop corrects by: the window's own, under SPREAD_REF the mean of the latest windows (R250, R252). -/
def trimError (spread : Bool) (errs : List Int) : Int :=
  let l := if spread then errs else errs.take 1
  l.foldl (· + ·) 0 / (max 1 l.length : Nat)

/-- A measurement window of an enabled DCO ends with an error in ppm: the trim loop corrects the fine code, and the window is
judged (R250 to R252). -/
def State.dcoWindow (s : State) (k : Nat) (err : Int) : State :=
  let c := s.reg (aDcoCfg k)
  if k < 8 ∧ bit c 0 ∧ s.pwr.href then
    let r := s.reg (aDcoStat k)
    let e := max (-32767) (min 32767 err)
    let errs := (err :: s.errs k).take 16
    let s1 := ((s.setReg (aDcoStat k) (putFld r 4 16 ((BitVec.ofInt 16 e).toNat))).setErrs k errs).setFine k
      (s.fine k - trimError (bit c 2) errs)
    let ok := inTolerance (bit c 2) (fld c 23 11) errs
    if ok then
      if bit r 0 then s1
      else if fld r 2 2 = 3 then
        (s1.setReg (aDcoStat k) (putFld (putFld (s1.reg (aDcoStat k)) 0 1 1) 2 2 0)).drivePads
      else s1.setFld (aDcoStat k) 2 2 (fld r 2 2 + 1)
    else if bit r 0 then
      let s2 := (s1.dcoRestart k).count (aDcoStat k) 20 16
      let data := bytesOfNat 1 k ++ zeros 1 ++ bytesOfNat 2 (fld (s2.reg (aDcoStat k)) 4 16) ++ zeros 4
      ((s2.setBit (aDcoStat k) 1 true).event 5 0xFF data).drivePads
    else s1.dcoRestart k
  else s

/- BAR4 and the flash read port (R256, R261). -/

/-- The completion of a request at a user bus port: a packet-network request is answered; a host read completes, with ERR_CPL
for an error; a host write that fails is logged (R261, R333). -/
def State.bar4Complete (s : State) (q : Bar4Req) (status : Nat) (data : List Byte) : State :=
  let code := if status = stOk then 0 else if status = stDecode then 1 else 2
  match q.req with
  | some r => s.answer r status data false
  | none =>
  if q.write then
    if status = stOk then s else { s with host := { s.host with aer := s.host.aer ++ [code] } }
  else
    let c : HostCpl := { bar := 4, key := q.off, status := code, ep := false, data }
    let s1 : State := { s with host := { s.host with cpls := s.host.cpls ++ [c] } }
    if status = stOk then s1 else s1.count aHpStat 24 16

/-- A request of the right form at the user bus port of its region: refused while the region is fenced, else presented to the
region's logic until it is ready (R261). -/
def State.busRequest (s : State) (q : Bar4Req) : State :=
  if s.glueFenced q.n then s.bar4Complete q stFenced []
  else { s with glue := { s.glue with bar4 := s.glue.bar4 ++ [q] } }

/-- The logic of region `n` answers the request at its port in the cycle in which its ready signal is high. -/
def State.busEdge (old s : State) (n : Nat) : State :=
  match takeFirst (fun (q : Bar4Req) => q.n == n) s.glue.bar4 with
  | some (q, rest) =>
    if old.sink n .busReady then
      ({ s with glue := { s.glue with bar4 := rest } }).bar4Complete q stOk
        (if q.write then [] else bytesOfNat q.size (old.sinkNum n (8 * q.size) .busData))
    else s
  | none => s

/-- The 64 bits at a flash-window offset, as the read port of G7 returns them: 0 outside the user partition. -/
def State.flashPort (s : State) (off : Nat) : State :=
  let w := if 0x30_0000 ≤ off ∧ off + 8 ≤ 0x40_0000 then s.word (0x17_0000_0000 + off) else 0
  if s.glueRuns 7 then { s with glue := { s.glue with flashOut := s.glue.flashOut ++ [w] } } else s

/- Raw and Ethernet lanes (R260, R327, R328). -/

/-- MODE of a link's record while it is ACTIVE, else 0. -/
def State.activeMode (s : State) (n : Nat) : Nat :=
  match (s.link n).conf with
  | some r => if s.fldOf (aLnStat n) 0 3 = 5 then r.mode else 0
  | none => 0

/-- Kilobits per second of a lane at a RATE (R308). -/
def lineRate : Nat → Nat
  | 0 => 10_312_500
  | 1 => 25_781_250
  | _ => 28_125_000

/-- Blocks that a lane of a RATE has sent by a tick of the time base (R80, R308). -/
def State.blocksBy (s : State) (rate tb : Nat) : Nat := tb * lineRate rate / (66 * (if s.part.speed15 then 1_500_000 else 1_200_000))

/-- One slot of a lane: the oldest block that the glue fabric has offered, or, where none is valid, a fill block; an Ethernet
lane fills with idle characters and scrambles what it sends. -/
def State.sendSlot (s : State) (lane : Nat) (ethernet : Bool) : State :=
  let next := takeFirst (fun (e : Nat × Nat × W64) => e.1 == lane) s.glue.offers
  let b := (next.map fun x => x.1.2).getD (if ethernet then pcsEncode pcsIdle.1 pcsIdle.2 else (2, 0))
  let l := s.link lane
  let q := if ethernet then scramble 64 l.scrTx b.2.toNat else (l.scrTx, b.2.toNat)
  let s1 : State := { s with glue := { s.glue with offers := (next.map (·.2)).getD s.glue.offers,
                                                    rawTx := s.glue.rawTx ++ [(lane, b.1, BitVec.ofNat 64 q.2)] } }
  s1.setLink lane { l with scrTx := q.1 }

/-- What the logic of a lane's region offers it in one cycle: up to two blocks, or PCS transfers as blocks. -/
def State.offered (s : State) (lane : Nat) (ethernet : Bool) : List (Nat × Nat × W64) :=
  let n := laneRegion lane
  let l := lane - firstLane n
  if s.glueRuns n = false then []
  else [0, 1].filterMap fun j =>
    if s.sink n (.laneValid l j) then
      let d : W64 := BitVec.ofNat 64 (s.sinkNum n 64 (.laneData l j))
      some (lane, if ethernet then pcsEncode (s.sinkNum n 8 (.laneHead l j)) d else (s.sinkNum n 2 (.laneHead l j), d))
    else none

/-- A raw or Ethernet lane over one CLK_GLUE cycle: what its region offers joins the queue, the slots of the cycle are sent,
and what was presented to the region is gone. -/
def State.laneEdge (old s : State) (lane : Nat) : State :=
  let m := old.activeMode lane
  let rate := ((old.link lane).conf.map (·.rate)).getD 0
  let ethernet := m != 4
  let s1 : State := { s with glue := { s.glue with offers := s.glue.offers ++ old.offered lane ethernet } }
  s1.forEach (List.range (old.blocksBy rate old.tb - old.blocksBy rate (old.tb - old.glueTicks))) fun s _ => s.sendSlot lane ethernet

/-- Lanes that run in raw or Ethernet mode. -/
def State.rawLanes (s : State) : List Nat := (s.links.map (·.1)).filter fun n => decide (2 ≤ s.activeMode n)

/-- What two slots of every lane have presented is gone. -/
def State.rawTaken (s : State) : State :=
  { s with rawRx := s.rawRx.zipIdx.filterMap fun e =>
      if ((s.rawRx.take e.2).filter fun f => f.1 == e.1.1).length < 2 then none else some e.1 }

/- User serial blocks at their fabric ports (R254, R255). -/

/-- A claimed serial block over one CLK_GLUE cycle: the logic's byte enters a FIFO that has room, a byte taken leaves; whether
the block has sent a byte, and received one, is free, for the spec lays out no setting that would time it (log 11). -/
def State.serialEdge (old s : State) (b : Nat) : State :=
  let tx := s.glue.serTx
  let rx := s.glue.serRx
  let put := old.sink 7 (.serValid b) && old.glueIn 7 (.serReady b)
  let tx1 := if Config.glueBit old.free (8 * b) then ((takeFirst (fun (e : Nat × Byte) => e.1 == b) tx).map (·.2)).getD tx else tx
  let tx2 := if put then tx1 ++ [(b, BitVec.ofNat 8 (old.sinkNum 7 8 (.serData b)))] else tx1
  let rx1 := if old.sink 7 (.serReady b) then ((takeFirst (fun (e : Nat × Byte) => e.1 == b) rx).map (·.2)).getD rx else rx
  let rx2 := if Config.glueBit old.free (8 * b + 1) ∧ (rx1.filter fun e => e.1 == b).length < 64 then
      rx1 ++ [(b, Config.freeByte old.free)] else rx1
  { s with glue := { s.glue with serTx := tx2, serRx := rx2 } }

/- The CLK_GLUE edge. -/

/-- The pin whose PIN_CFG lies at an address. -/
def pinOfCfg (a : Nat) : Option Nat :=
  if aGpio 0 0 ≤ a ∧ a < aGpio 8 0 ∧ 0x100 ≤ a % 0x200 then some (32 * ((a - aGpio 0 0) / 0x200) + (a % 0x200 - 0x100) / 8) else none

/-- Pins of a clocked function, while the pads are live. -/
def State.clockedPins (s : State) : List Nat :=
  if s.glue.live then s.regs.filterMap fun e => (pinOfCfg e.1).filter fun _ => clockedFunc (fld e.2 0 3) else []

/-- A CLK_GLUE edge changes nothing: no glue region runs, every pin is at rest and no lane is in raw or Ethernet mode. -/
def State.glueQuiet (s : State) : Bool :=
  !((List.range 8).any s.glueRuns) && s.rawRx.isEmpty && s.rawLanes.isEmpty && s.glue.ticked.isEmpty && s.clockedPins.isEmpty &&
  (s.glue.pads.all fun e => decide (256 ≤ e.1) || !s.pinRestless e.1) &&
  (List.range 8).all fun b => s.reg (aIn b) == 0 || (List.range 32).all fun i => !s.pinRestless (32 * b + i)

/-- The ports of the running regions, by the signals before the edge. -/
def State.portsEdge (old s : State) : State :=
  let s1 := s.forEach ((List.range 8).filter old.glueRuns) old.busEdge
  let s2 := (s1.forEach old.rawLanes old.laneEdge).rawTaken
  if old.glueRuns 7 then s2.forEach
    ((List.range 3).filter fun b => old.claim 3 b != 0 && old.clk.opened.contains (0x508 + b)) old.serialEdge else s2

/-- The pads over one edge: those that wait and those of clocked functions take what their functions give them. -/
def State.padsEdge (s : State) : State :=
  let wait := (List.range 256).filter fun p => (s.pad p).pending
  let s1 := s.forEach wait fun s p => s.setPad p { s.pad p with pending := false }
  let ps := wait ++ s.clockedPins
  s1.forEach ((List.range 256).filter ps.contains) fun s p => if s.padHolds p then s else s.drivePad p

/-- One CLK_GLUE edge: the fabric, the ports, the input paths and the pads (R239, R242, R257, R260, R261, R267, R268). -/
def State.glueEdge (s : State) : State :=
  let s1 : State := if (List.range 8).any s.glueRuns then s.fabricEdge else { s with glue := { s.glue with ticked := [] } }
  (((s.portsEdge s1).forEach (List.range 256) State.inputEdge).padsEdge).draw

/-- At most `n` CLK_GLUE edges, the time base following them, until one would change nothing. -/
def State.edges : Nat → State → State
  | 0, s => s
  | n + 1, s =>
    if s.glueQuiet then s else State.edges n (s.advanceTo ((s.tb / s.glueTicks + 1) * s.glueTicks)).glueEdge

/-- Time passes up to a tick, with every CLK_GLUE edge on the way. -/
def State.passTo (s : State) (tb : Nat) : State :=
  (State.edges (tb / s.glueTicks - s.tb / s.glueTicks) s).advanceTo tb

/-- One tick of the time base, with nothing commanded (log 2). -/
def State.tick (s : State) : State := if s.locked && !s.pwr.inReset then s.passTo (s.tb + 1) else s

/-- The oldest aligned output word updates BR_OUT at its release edge; a late one is counted in OUT_LATE (R85). -/
def State.outRelease (s : State) (m : Nat) : State :=
  let b := s.br m
  match b.regd with
  | [] => s
  | o :: rest =>
    let (at_, late) := s.releaseAt m o
    let s1 := (s.passTo at_).setBr m { b with regd := rest, brOut := o.w }
    if late then s1.count (aRgnCnt m) 48 16 else s1

/-- The level at a pad has been sampled, has held for FILT cycles and reaches IN: time passes until then (R267). -/
def State.pinFilter (s : State) (p : Nat) : State :=
  if p < 256 ∧ s.padLevel p ≠ s.pinIn p then s.passTo (s.tb + (2 + s.fldOf (aPinCfg p) 16 8) * s.glueTicks) else s

end Sys2Proof.Machine
end

