-- ==== Sys2Proof/Machine/Rigging.lean ====
section
/-! DEFINITION. The rigging network (R87 to R112): slot-table lookup, buffers, arbitration, delivery, shrouds, epoch swaps
and drains. Outputs 0 to 3 are N, E, S, W, 4 is X, 5 to 12 are the deliveries D0 to D7; input codes are those of R87. -/

namespace Sys2Proof.Machine

/- Counts of R302. -/

/-- Count of an entry: the group ecycle of its next bundle. -/
def State.slotCount (s : State) (t out half slot : Nat) : Nat := mapGet (fun _ => 0) (s.sw t).counts (slotKey out half slot)

/-- Advances an entry's count by 1. -/
def Sw.bump (w : Sw) (k : Nat) : Sw :=
  { w with counts := mapSet (fun _ => 0) w.counts k (mapGet (fun _ => 0) w.counts k + 1) }

/- Arrival (R89, R97, R110). -/

/-- Buffer key of an input (0 to 3 for N, E, S, W) and class; the X input has one buffer for each link, under
10000 + first lane (R100). -/
def bufKey (input vc : Nat) : Nat := 2 * input + vc
def xKey (n : Nat) : Nat := 10000 + n

/-- A place of the buffer under a key has been freed: its credit starts back to the upstream output, or to the link's
partner (R100, R318). -/
def State.freePlace (s : State) (t key : Nat) : State :=
  if key < 8 then
    let u := neighbour t (key / 2)
    let w := s.sw u
    let k := 2 * farInput (key / 2) + key % 2
    s.setSw u { w with back := mapSet (fun _ => 0) w.back k (mapGet (fun _ => 0) w.back k + 1) }
  else if 10000 ≤ key then
    let l := s.link (key - 10000)
    s.setLink (key - 10000) { l with ownFreed := mapSet (fun _ => 0) l.ownFreed 8 (mapGet (fun _ => 0) l.ownFreed 8 + 1) }
  else s

/-- A bundle on input `input` is put into the buffer under `key` with the copies it is to leave as; matching none, it is
discarded. -/
def State.arrive (s : State) (t input key : Nat) (b : Bundle) : State :=
  let copies := s.matches t (0xF0 + input) b.half b.slot
  if copies.isEmpty then
    (s.noRoute t (0xF0 + input) b.half b.slot b.owner).freePlace t key
  else
    let w := s.sw t
    let l := mapGet (fun _ => []) w.bufs key ++ [{ b, todo := copies, since := s.tb }]
    s.setSw t { w with bufs := mapSet (fun _ => []) w.bufs key l }

/-- The region of a tile absorbs arriving bundles: fenced with its rigging drain complete (R110). -/
def State.absorbing (s : State) (t : Nat) : Bool :=
  let m := regionOfTile t
  s.fenced m && s.bitOf (aCfgRgn m) 4

/-- A bundle is taken by a delivery entry: discarded below a join's J, absorbed in a fenced region, else parked (R97,
R110, R302, R303). -/
def State.deliver (s : State) (t out slot : Nat) (b : Bundle) : State :=
  let w := s.sw t
  let k := slotKey out b.half slot
  let n := mapGet (fun _ => 0) w.counts k
  let w1 := w.bump k
  if n < mapGet (fun _ => 0) w.joinBelow k ∨ s.absorbing t then
    (s.setSw t w1).count (aRigCnt t) 48 16
  else
    let s1 := s.setSw t { w1 with parked := w1.parked ++ [{ out, half := b.half, slot, gen := b.gen, data := b.data }] }
    s1.setFld (aSlot t out b.half slot 1) (45 + b2n b.gen) 1 1

/- Arbitration (R96). -/

/-- A contender for an output: where it stands, the slot it leaves under, and its place in the order of service. -/
structure Contender where
  /-- 0 to 7 and from 10000: input buffer key; 16 + c: injection of cluster name c; 1024 + slot: shroud. -/
  src : Nat
  slot : Nat
  since : Nat
  prio : Nat
  b : Bundle
  deriving DecidableEq, Repr

/-- Port priority of an input buffer: X, then N, E, S, W; VC1 before VC0 (R96). -/
def inputPrio (key : Nat) : Nat :=
  if 10000 ≤ key then 0 else 2 * (key / 2 + 1) + (1 - key % 2)

/-- The contenders of one buffer head for an output. -/
def headContends (src prio out : Nat) (l : List Waiting) : List Contender :=
  match l with
  | [] => []
  | h :: _ => (h.todo.filter fun x => x.1 == out).map fun x => { src, slot := x.2, since := h.since, prio, b := h.b }

/-- Every bundle waiting for an output of a switch. -/
def Sw.contenders (w : Sw) (out : Nat) : List Contender :=
  (w.bufs.flatMap fun e => headContends e.1 (inputPrio e.1) out e.2) ++
  (w.inj.flatMap fun e => headContends (16 + e.1) (16 + e.1) out e.2) ++
  ((w.offers.filter fun o => o.out == out).map fun o =>
    { src := 1024 + o.slot, slot := o.slot, since := o.since, prio := 1024 + o.slot,
      b := { data := 0, gen := o.gen, half := o.half, slot := o.slot, vc := 0, owner := 0 } })

/-- Oldest first, then port priority, then slot. -/
def Contender.before (x y : Contender) : Bool :=
  decide (x.since < y.since ∨ (x.since = y.since ∧ (x.prio < y.prio ∨ (x.prio = y.prio ∧ x.slot < y.slot))))

/-- The first contender in the order of service. -/
def firstOf : List Contender → Option Contender
  | [] => none
  | x :: rest => match firstOf rest with
    | none => some x
    | some y => if y.before x then some y else some x

/-- Class a bundle carries on leaving by `out` (R101): VC1 across a wrap-around link; VC0 where its route turns from x to
y; else as it came. Shrouds carry the class of a region's own bundle. -/
def outClass (t out src : Nat) (b : Bundle) : Nat :=
  if wraps t out then 1
  else if 8 ≤ src then 0
  else
    let fromX := src / 2 == 1 || src / 2 == 3
    if fromX && (out == 0 || out == 2) then 0 else b.vc

/-- A delivery entry in a tile of a paused set whose owner lies outside it has stopped accepting; one fed from an X input
serves another device's route (R306, R349). -/
def State.heldForeign (s : State) (t out half slot : Nat) : Bool :=
  let e := slotAt 0 (s.slotHi t out half slot)
  s.casc.paused.contains (regionOfTile t) && (!s.casc.paused.contains e.owner || e.srcPort == 0xF4)

/-- First lane of the link that carries a bundle leaving by X under an entry; none where XQ names no link (R105). -/
def State.xLink (s : State) (t half slot : Nat) : Option Nat :=
  (s.xLinks t)[fld (s.slotHi t 4 half slot) 47 4]?

/-- Room downstream of an output for a contender (R100): a free place in the next buffer, a free place on the link that
XQ names, or the entry's parking place. A fenced region's deliveries take everything (R110); a bundle whose XQ names no
link waits for no room, as it is discarded (R105). -/
def State.outRoom (s : State) (t out : Nat) (x : Contender) : Bool :=
  if out < 4 then
    decide (mapGet (fun _ => 0) (s.sw t).used (2 * out + outClass t out x.src x.b) < linkPlaces t out)
  else if out = 4 then
    match s.xLink t x.b.half x.slot with
    | some n =>
      let l := s.link n
      decide (mapGet (fun _ => 0) l.sent 8 + (l.txq.filter fun e => e.cls == 2).length <
        mapGet (fun _ => 0) l.freed 8 + 192)
    | none => true
  else
    let k := slotKey out x.b.half x.slot
    !s.heldForeign t out x.b.half x.slot &&
    (s.absorbing t || decide (mapGet (fun _ => 0) (s.sw t).counts k < mapGet (fun _ => 0) (s.sw t).joinBelow k) ||
    !((s.sw t).parked.any fun q => q.out == out && q.half == x.b.half && q.slot == x.slot && q.gen == x.b.gen))

/-- The copy a contender stands for has been accepted: it leaves its buffer with its last copy (R89, R90). -/
def State.accepted (s : State) (t : Nat) (x : Contender) (out : Nat) : State :=
  let w := s.sw t
  let strip := fun (h : Waiting) => { h with todo := h.todo.filter fun c => c != (out, x.slot) }
  if 1024 ≤ x.src ∧ x.src < 10000 then s.setSw t { w with offers := w.offers.filter fun o => !(o.out == out && o.slot == x.slot && o.half == x.b.half) }
  else if 16 ≤ x.src ∧ x.src < 1024 then
    match mapGet (fun _ => []) w.inj (x.src - 16) with
    | [] => s
    | h :: rest =>
      let h' := strip h
      let l := if h'.todo.isEmpty then rest else h' :: rest
      s.setSw t { w with inj := mapSet (fun _ => []) w.inj (x.src - 16) l }
  else
    match mapGet (fun _ => []) w.bufs x.src with
    | [] => s
    | h :: rest =>
      let h' := strip h
      let rest' := rest.map fun r => { r with since := s.tb }
      let l := if h'.todo.isEmpty then rest' else h' :: rest
      let s1 := s.setSw t { w with bufs := mapSet (fun _ => []) w.bufs x.src l }
      if h'.todo.isEmpty then s1.freePlace t x.src else s1

/-- The 10-byte BUNDLE entry of a bundle on an Aelbel Link (R319). -/
def bundleEntry (b : Bundle) : List Byte :=
  bytesOfNat 10 (1 + 16 * b2n b.gen + 32 * b.half + 64 * b.slot + 2 ^ 16 * b.data.toNat)

/-- The input code of a contender, which RIG_ERR records (R87, R112). A shroud's bundle came by no input: the code recorded
of it is a free value (log 95). -/
def State.inputCode (s : State) (x : Contender) : Nat :=
  if x.src < 8 then 0xF0 + x.src / 2
  else if 10000 ≤ x.src then 0xF4
  else if x.src < 1024 then x.src - 16
  else (Config.freeWord s.free 0).toNat % 256

/-- A bundle whose XQ names no link is discarded and counted, as one that matches no entry (R91, R105). -/
def State.noLink (s : State) (t : Nat) (x : Contender) (owner : Nat) : State :=
  (s.noRoute t (s.inputCode x) x.b.half x.b.slot owner).draw

/-- A granted bundle leaves by its output under slot `slot` (R89, R93, R302): onto a link, into a lane's queue, or to the
delivery. -/
def State.leave (s : State) (t out : Nat) (x : Contender) : State :=
  let hiA := aSlot t out x.b.half x.slot 1
  let e := slotAt 0 (s.reg hiA)
  let b : Bundle := { x.b with slot := x.slot, vc := outClass t out x.src x.b, owner := e.owner,
                               data := if 1024 ≤ x.src ∧ x.src < 10000 then s.reg (aSlot t out x.b.half x.slot 0) else x.b.data }
  let s1 := s.setFld hiA 44 1 (b2n b.gen)
  if out < 4 then
    let w := if boundaryOut t out then (s1.sw t).bump (slotKey out b.half x.slot) else s1.sw t
    let k := 2 * out + b.vc
    let u := mapSet (fun _ => 0) w.used k (mapGet (fun _ => 0) w.used k + 1)
    s1.setSw t { w with flying := w.flying ++ [{ out, b }], used := u }
  else if out = 4 then
    match s.xLink t b.half x.slot with
    | some n =>
      let s2 := s1.setSw t ((s1.sw t).bump (slotKey out b.half x.slot))
      let l := s2.link n
      s2.setLink n { l with txq := l.txq ++ [{ cls := 2, net := 0, bytes := bundleEntry b }] }
    | none => s.noLink t x e.owner
  else s1.deliver t out x.slot b

/-- Every contender that was not granted has lost a collision: counted, the latest loser recorded (R96, R112). Of several
that lose in one cycle the last in the order of `Sw.contenders` (buffers by key, injections, shroud offers) counts as the latest
(DESIGN CHOICE, log 95). -/
def State.collisions (s : State) (t out : Nat) (losers : List Contender) : State :=
  match losers.getLast? with
  | none => s
  | some x =>
    let s1 := s.count (aRigCnt t) 0 32 losers.length
    s1.setReg (aRigErr t) (putFld (putFld (s1.reg (aRigErr t)) 0 4 out) 4 10 x.slot)

/-- One cycle of an output (R96): the first contender with room downstream leaves, every other contender has lost; with no
grant nobody has. -/
def State.grantOutput (s : State) (t out : Nat) : State :=
  let all := (s.sw t).contenders out
  match firstOf (all.filter (s.outRoom t out)) with
  | none => s
  | some x =>
    let losers := all.filter fun y => !(y.src == x.src && y.slot == x.slot && y.b.half == x.b.half)
    ((s.collisions t out losers).leave t out x).accepted t x out

/- Receive latches (R97, R98, R304). -/

/-- Moves a parked bundle into the latch of a physical cluster when it is the next expected and the latch has room; the
half that is not the owner's ACT_HALF goes first (R97, R304). `latch` is 0 for RX0, 1 for RX1. -/
def State.latchIn (s : State) (t pc latch : Nat) : State :=
  let u := s.clu (cluKey t pc)
  let r := s.reg (aRxSeq t pc)
  let next := fld r (32 * latch + 10) 10
  let gen := bit r (32 * latch + 20)
  let n := fld r (32 * latch) 10
  let l := if latch = 0 then u.rx0 else u.rx1
  let w := s.sw t
  let fits := w.parked.filter fun q =>
    let e := slotAt 0 (s.slotHi t q.out q.half q.slot)
    q.gen == gen && e.seq == next && b2n e.latch == latch && s.phys t e.dest == pc
  let old := fits.filter fun q =>
    let o := (slotAt 0 (s.slotHi t q.out q.half q.slot)).owner
    q.half != b2n (s.bitOf (aRgnRig o) 0)
  match (old ++ fits).head? with
  | none => s
  | some q =>
    if l.length < 2 then
      let l' := l ++ [{ gen := q.gen, data := q.data }]
      let s1 := s.setClu (cluKey t pc) (if latch = 0 then { u with rx0 := l' } else { u with rx1 := l' })
      let s2 := s1.setSw t { w with parked := w.parked.filter fun x => x != q }
      let s3 := s2.setFld (aSlot t q.out q.half q.slot 1) (45 + b2n q.gen) 1 0
      s3.setReg (aRxSeq t pc) (putFld (putFld r (32 * latch + 10) 10 (if next ≥ n then 0 else next + 1))
        (32 * latch + 20) 1 (if next ≥ n then b2n (!gen) else b2n gen))
    else s

/- Epoch swaps (R108). -/

/-- A requested swap is fixed for a period: ACT_HALF inverts. -/
def State.swapAt (s : State) (m c : Nat) : State :=
  let r := s.reg (aRgnRig m)
  if bit r 1 then s.setReg (aRgnRig m) (putFld (putFld (putFld r 0 1 (1 - fld r 0 1)) 1 1 0) 2 48 c) else s

/-- The counts of the boundary and delivery entries that region `m` owns in a half, in tile `t`, set to the group ecycle
of their next bundle (R302). -/
def State.setCounts (s : State) (m half n t : Nat) : State :=
  let es := (s.slots t).filter fun x => x.owner == m && x.half == half && (decide (5 ≤ x.out) || boundaryOut t x.out)
  let w := s.sw t
  if es.isEmpty then s
  else s.setSw t { w with counts := es.foldl (fun c x => mapSet (fun _ => 0) c (slotKey x.out x.half x.slot) n) w.counts }

/-- TB ticks of `n` CLK_STEP cycles, rounded up (R80, R363). -/
def State.stepTicks (s : State) (n : Nat) : Nat :=
  let d := if s.part.speed15 then 8 else 10
  (n * s.clk.step2 + d - 1) / d

/-- The swap of a region that has been released: for the lowest period c that no cluster of it has begun. The entries of the
new half count from ecycle c of the region on (R302; log 95). In a running region the swap reaches the last tile within 24
steps, freely chosen (R108; log 21). Before its release the swap waits for ecycle 0. -/
def State.halfSwap (s : State) (m : Nat) : State :=
  if (s.rgn m).released ∧ s.bitOf (aRgnRig m) 1 then
    let c := s.unbegun m
    let s1 := s.swapAt m c
    let s2 := s1.forEach (List.range 64) fun s t => s.setCounts m (s1.fldOf (aRgnRig m) 0 1) (s1.joinEcy m + c) t
    if s2.fenced m || s2.halted m then s2
    else s2.draw.setRgn m { s2.rgn m with swapTick := s2.tb + s2.stepTicks (Config.freeDelay s2.free 0 % 25) }
  else s

/- Shrouds and drains (R109 to R111). -/

/-- A bundle of region `m` remains in a buffer of the region's switches, or on a link between two of them, from which it
is yet to enter such a buffer (R111; log 79). -/
def State.rigBusy (s : State) (m : Nat) : Bool :=
  (tilesOf m).any fun t =>
    let w := s.sw t
    w.bufs.any (fun e => e.2.any fun h => h.b.owner == m) || w.inj.any (fun e => e.2.any fun h => h.b.owner == m) ||
      w.flying.any fun f => f.b.owner == m && !boundaryOut t f.out

/-- The rigging drain of a fenced region is complete: RIG_DRAINED and SHROUD set, and every parked bundle of its tiles is
discarded and counted (R110, R111). -/
def State.rigDrained (s : State) (m : Nat) : State :=
  let s1 := s.forEach (tilesOf m) fun s t =>
    let w := s.sw t
    let s2 := s.forEach w.parked fun s q => s.setFld (aSlot t q.out q.half q.slot 1) (45 + b2n q.gen) 1 0
    (s2.setSw t { (s2.sw t) with parked := [] }).count (aRigCnt t) 48 16 w.parked.length
  s1.setReg (aCfgRgn m) (putFld (s1.reg (aCfgRgn m)) 4 2 3)

/-- The shrouds of region `m` serve half `h`'s boundary entries: while SHROUD is set, the active half; after a join, the
old half up to J - 1 (R109, R303). -/
def State.shroudServes (s : State) (m t out h slot : Nat) : Bool :=
  let e := slotAt 0 (s.slotHi t out h slot)
  e.valid && e.owner == m && boundaryOut t out && !s.casc.paused.contains m &&
  ((s.bitOf (aCfgRgn m) 5 && h == b2n (s.bitOf (aRgnRig m) 0)) ||
   (match (s.rgn m).joinOld with
    | some j => h == (s.rgn m).joinHalf && decide (s.slotCount t out h slot < j)
    | none => false))

/-- A shroud offers the next bundle of a boundary entry, unless it already offers one (R109): GEN inverts LAST_GEN. -/
def State.shroudOffer (s : State) (t out h slot : Nat) : State :=
  let m := regionOfTile t
  let w := s.sw t
  let e := slotAt 0 (s.slotHi t out h slot)
  if s.shroudServes m t out h slot && !(w.offers.any fun o => o.out == out && o.slot == slot && o.half == h) then
    s.setSw t { w with offers := w.offers ++ [{ out, half := h, slot, gen := !e.lastGen, since := s.tb }] }
  else s

end Sys2Proof.Machine
end

