-- ==== Sys2Proof/Machine/Lanes.lean ====
section
/-! DEFINITION. Native lanes and Aelbel Link (R308 to R331): link records, bring-up, capability exchange, frames with
acknowledgement and retry, credits, low-power states, and the packet-network flits that a frame carries (R216 to R220). -/

namespace Sys2Proof.Machine

/- Link records (R310, R329). -/

/-- A link record of 16 bytes. -/
def linkRecOf (bs : List Byte) : LinkRec :=
  { first := leNum bs 0 1, width := leNum bs 1 1, mode := leNum bs 2 1, rate := leNum bs 3 1, classes := leNum bs 4 2,
    flags := leNum bs 6 1, errLimit := leNum bs 7 1, idleUs := leNum bs 8 2, sleepMs := leNum bs 10 2, densMin := leNum bs 12 1 }

/-- Lanes of a record. -/
def LinkRec.lanes (r : LinkRec) : Nat := 2 ^ r.width

/-- Whether a record covers a lane. -/
def LinkRec.covers (r : LinkRec) (lane : Nat) : Bool := decide (r.first ≤ lane ∧ lane < r.first + r.lanes)

/-- The record's own fields are as R310, R325 and R329 ask, whatever its mode. -/
def linkRecOk (bs : List Byte) (refSpread : Bool) : Bool :=
  let r := linkRecOf bs
  let j := r.first % 36
  decide (r.first < 144 ∧ r.width ≤ 4 ∧ r.mode ≤ 4) && j % r.lanes == 0 && decide (j + r.lanes ≤ 36) &&
  decide (r.rate ≤ 2 ∧ r.classes < 64 ∧ r.flags < 8 ∧ 1 ≤ r.errLimit) &&
  (r.flags % 2 == 0 || decide (1 ≤ r.idleUs)) && (r.flags / 2 % 2 == 0 || decide (1 ≤ r.sleepMs)) &&
  (r.densMin == 0 || decide (10 ≤ r.densMin ∧ r.densMin ≤ 45)) && allZero (sub bs 13 3) &&
  (decide (r.mode ≤ 1) || r.width == 0) && (r.mode != 2 || (r.rate == 0 && !refSpread)) &&
  (r.mode != 3 || (r.rate == 1 && !refSpread)) &&
  !(r.mode == 1 && r.flags / 2 % 2 == 1 && decide (r.classes % 8 ≠ 0))

/-- Two records share a lane, or a quad. -/
def LinkRec.meets (a b : LinkRec) : Bool := decide (a.first < b.first + b.lanes ∧ b.first < a.first + a.lanes)
def LinkRec.sameQuad (a b : LinkRec) : Bool :=
  decide (a.first / 4 ≤ (b.first + b.lanes - 1) / 4 ∧ b.first / 4 ≤ (a.first + a.lanes - 1) / 4)

/-- Two links would run the PLL of one quad at two rates (R308, R310). -/
def LinkRec.clashes (a b : LinkRec) : Bool := a.mode != 0 && b.mode != 0 && a.rate != b.rate && a.sameQuad b

/-- No two of a list of records run a quad at two rates, and none does so with a link in force or recorded that shares no
lane with the list (R310). -/
def State.ratesOk (s : State) (rs : List LinkRec) : Bool :=
  let others := (s.links.flatMap fun e => e.2.conf.toList ++ e.2.recorded.toList).filter fun b => !rs.any b.meets
  rs.all fun a => (rs ++ others).all fun b => !a.clashes b

/-- LN_STAT.STATE of a link. -/
def State.lnState (s : State) (n : Nat) : Nat := s.fldOf (aLnStat n) 0 3
def State.lnActive (s : State) (n : Nat) : Bool := s.lnState n == 5

/-- The link that a lane belongs to, by its first lane. -/
def State.linkAt (s : State) (lane : Nat) : Option Nat :=
  (s.links.find? fun e => match e.2.conf with
    | some r => r.covers lane
    | none => false).map (·.1)

/-- An Aelbel link that a lane belongs to, with its record. -/
def State.aelbelAt (s : State) (lane : Nat) : Option (Nat × LinkRec) :=
  match s.linkAt lane with
  | some n => match (s.link n).conf with
    | some r => if r.mode = 1 then some (n, r) else none
    | none => none
  | none => none

/- Blocks on the lanes (R311, R312). -/

/-- Width code for `k` lanes: the largest width not above it. -/
def widthCode (k : Nat) : Nat := Nat.log2 k

/-- A block sent on lane `i` of a link, its payload scrambled (R311). -/
def Link.block (l : Link) (i sync payload : Nat) : Link :=
  let q := scramble 64 (mapGet (fun _ => 0) l.scr i) payload
  { l with scr := mapSet (fun _ => 0) l.scr i q.1, wire := l.wire ++ [(i, sync, BitVec.ofNat 64 q.2)] }

/-- A control block sent on every lane. -/
def Link.everyLane (l : Link) (f : Nat → List Byte) : Link :=
  (List.range l.lanes).foldl (fun l i => l.block i 2 (natOfBytes (f i))) l

/-- ALIGN on every lane: LANE_IN_LINK, MARKER_SEQ and the width code (R311). -/
def Link.alignAll (l : Link) : Link :=
  { l.everyLane fun i => [0xC3] ++ bytesOfNat 1 i ++ bytesOfNat 2 l.markerSeq ++ bytesOfNat 1 (widthCode l.lanes) with
    markerSeq := (l.markerSeq + 1) % 2 ^ 16 }

/-- A block of the stream: block j goes on lane j mod w; after every 16,384 and 1,024 of their own blocks the lanes carry
ALIGN and SKIP, ALIGN first (R312; log 105). -/
def Link.streamed (l : Link) (sync payload : Nat) : Link :=
  let l1 := { l.block (l.pos % l.lanes) sync payload with pos := l.pos + 1 }
  let own := l1.pos / l.lanes
  if l1.pos % l.lanes ≠ 0 then l1
  else
    let l2 := if own % 16384 = 0 then l1.alignAll else l1
    if own % 1024 = 0 then l2.everyLane fun _ => [0xC5] else l2

/-- An IDLE block: its acknowledgement field and its CRC-8 (R311). -/
def idleBlock (seq : Nat) (nak : Bool) : List Byte :=
  let b := [0xC0, 0, 0] ++ bytesOfNat 2 (seq % 4096 + 4096 * b2n nak) ++ [0, 0]
  b ++ bytesOfNat 1 (crc8 (bitsOfBytes b))

/-- The blocks of what a link sends. A frame is a FRAME control block and 31 data blocks (R318); the training burst is no
block of the code. -/
def Link.emit (l : Link) (o : LinkOut) : Link :=
  match o with
  | .burst => l
  | .control 0xC3 => l.alignAll
  | .control t => l.everyLane fun _ => bytesOfNat 1 t
  | .ack seq nak => l.streamed 2 (natOfBytes (idleBlock seq nak))
  | .cap lane b =>
    let i := lane - (l.conf.map (·.first)).getD lane
    (List.range 4).foldl (fun l k => l.block i 2 (natOfBytes ([0xC6] ++ bytesOfNat 1 k ++ sub b (6 * k) 6))) l
  | .frame b => (List.range 32).foldl (fun l k => l.streamed (if k = 0 then 2 else 1) (leNum b (8 * k) 8)) l

/-- What a link sends next, after what it has sent. -/
def Link.send (l : Link) (o : List LinkOut) : Link := o.foldl Link.emit { l with out := l.out ++ o }

def State.linkSend (s : State) (n : Nat) (o : List LinkOut) : State := s.setLink n ((s.link n).send o)

/-- LINK_STATE event (R405). -/
def State.linkEvent (s : State) (n status : Nat) : State :=
  s.event 0xA 0xFF (bytesOfNat 1 n ++ bytesOfNat 1 (s.lnState n) ++ bytesOfNat 2 status)

/- Bring-up (R313 to R316). -/

/-- A link comes out of DOWN with a record: DETECT for Aelbel, LOCK for the other modes (R313, R327). -/
def State.bringUp (s : State) (r : LinkRec) (mgmt : Bool) : State :=
  let old := s.link r.first
  let s1 := s.setLink r.first { conf := some r, mgmt, lanes := r.lanes, out := old.out, wire := old.wire, txq := old.txq, test := old.test }
  s1.setReg (aLnStat r.first) (BitVec.ofNat 64 (if r.mode = 1 then 1 else 3))

/-- A failure counted (R315); the eighth in a row is reported. -/
def State.linkFail (s : State) (n : Nat) : State :=
  let f := s.fldOf (aLnStat n) 8 4
  let s1 := s.setFld (aLnStat n) 8 4 (min 8 (f + 1))
  if f = 7 then
    if (s.link n).found then (s1.setBit (aLnStat n) 13 true).linkEvent n 0x51
    else (s1.setBit (aLnStat n) 12 true).linkEvent n 0x50
  else s1

/-- A poll of DETECT (R313, R315). -/
def State.detectPoll (s : State) (n : Nat) (found : Bool) : State :=
  if s.lnState n ≠ 1 then s
  else if found then
    (s.setLink n { s.link n with stageFails := 0, found := true }).setFld (aLnStat n) 0 3 2
  else s.linkFail n

/-- A failure in TRAIN, LOCK or EXCHANGE: TRAIN again on every lane, or DETECT after the third (R315). -/
def State.stageFail (s : State) (n : Nat) : State :=
  let l := s.link n
  let lanes := match l.conf with
    | some r => r.lanes
    | none => l.lanes
  let s1 := (s.setLink n { l with stageFails := l.stageFails + 1, caps := [], lanes }).linkFail n
  s1.setFld (aLnStat n) 0 3 (if 3 ≤ l.stageFails + 1 then 1 else 2)

def State.trainComplete (s : State) (n : Nat) : State :=
  if s.lnState n = 2 then s.setFld (aLnStat n) 0 3 3 else s

/-- DEVICE_ID (R416). -/
def State.deviceId (s : State) : List Byte := (sha3 s.part.idKey).take 8

/-- The capability block this device sends on lane `lane` of a link (R314). -/
def State.capBlock (s : State) (r : LinkRec) (lane : Nat) : List Byte :=
  let pos := s.part.cascId % 16 + 16 * b2n s.part.masterLow + 32 * b2n (s.bitOf aCascStat 5)
  let body := [1] ++ bytesOfNat 1 r.rate ++ bytesOfNat 1 r.width ++ bytesOfNat 1 (lane - r.first) ++ bytesOfNat 1 lane ++
    [16] ++ bytesOfNat 1 (r.flags % 4) ++ bytesOfNat 1 pos ++ bytesOfNat 2 r.classes ++ s.deviceId ++ zeros 2
  body ++ bytesOfNat 4 (crc32 body)

/-- EXCHANGE begins: the capability block goes out on every lane of the link (R313, R314). -/
def State.beginExchange (s : State) (n : Nat) (r : LinkRec) : State :=
  (s.setFld (aLnStat n) 0 3 4).linkSend n
    ((List.range (s.link n).lanes).map fun i => .cap (r.first + i) (s.capBlock r (r.first + i)))

/-- Locked and deskewed in both directions; a skew beyond 32 blocks is not tolerated (R312, R313). -/
def State.lockComplete (s : State) (n skew : Nat) : State :=
  match s.aelbelAt n with
  | some (m, r) =>
    if m = n ∧ s.lnState n = 3 ∧ skew ≤ 32 then
      ((s.setLink n { s.link n with caps := [] }).beginExchange n r).setFld (aLnMon n) 48 8 skew
    else s
  | none => s

/-- A received capability block is valid. -/
def capValid (b : List Byte) : Bool :=
  b.length == 24 && leNum b 0 1 == 1 && allZero (sub b 18 2) && leNum b 20 4 == crc32 (b.take 20)

/-- The capability blocks of a lane. -/
def Link.capRx (l : Link) (lane : Nat) : CapRx :=
  (l.caps.find? fun c => c.lane == lane).getD { lane, pieces := [], last := [], agreed := false }

def Link.setCapRx (l : Link) (c : CapRx) : Link := { l with caps := l.caps.filter (fun x => x.lane != c.lane) ++ [c] }

/-- One CAP control block taken up: with its fourth piece the block is whole, and agrees when it is valid and equals the
latest valid one. A lane that has agreed keeps the block it agreed on. -/
def CapRx.take (c : CapRx) (block : List Byte) : CapRx :=
  let i := leNum block 1 1
  let ps := c.pieces.filter (fun p => p.1 != i) ++ [(i, sub block 2 6)]
  let whole := (List.range 4).flatMap fun i => match ps.find? fun p => p.1 == i with
    | some p => p.2
    | none => []
  if whole.length ≠ 24 then { c with pieces := ps }
  else if c.agreed || !capValid whole then { c with pieces := [] }
  else { c with pieces := [], last := whole, agreed := whole == c.last }

/-- A LANE_TEST runs on a lane of a record (R326). -/
def State.underTest (s : State) (r : LinkRec) : Bool := s.links.any fun e => (e.2.test.map fun t => t.lanes.any r.covers).getD false

/-- EXCHANGE accepts the partner's block on a lane (R316). -/
def State.capAccepts (s : State) (lane : Nat) (r : LinkRec) (b : List Byte) : Bool :=
  leNum b 1 1 == r.rate && leNum b 2 1 == r.width && leNum b 3 1 == lane - r.first &&
  (sub b 10 8 != s.deviceId || s.underTest r)

/-- The link enters ACTIVE (R313, R315, R316, R331). Sequence numbers and credit counts start at 0. -/
def State.enterActive (s : State) (n : Nat) (cap : List Byte) : State :=
  let l := s.link n
  let classes := match l.conf with
    | some r => if r.mode = 1 then r.classes &&& leNum cap 8 2 else 0
    | none => 0
  let s1 := s.setLink n { l with
    caps := [], stageFails := 0, found := false, txSeq := 0, rxNext := 0, nakSent := false, retry := [], replays := 0,
    crcBad := 0, sent := [], freed := [], ownFreed := [], told := [], unserved := [], inbox := [], forwarded := [],
    txHeld := false, pos := 0, markerSeq := 0, aligns := [],
    classesOn := classes, partnerPower := leNum cap 6 1 }
  let v := leNum cap 4 1 * 2 ^ 16 + leNum cap 7 1 * 2 ^ 24 + widthCode l.lanes * 2 ^ 32
  let s2 := (s1.setReg (aLnStat n) (BitVec.ofNat 64 (5 + v))).setReg (aLnPartner n) (BitVec.ofNat 64 (leNum cap 10 8))
  (s2.linkSend n [.control 0xC3]).linkEvent n 0

/-- The link after EXCHANGE has judged its first lanes: ACTIVE when it accepts every one, under NARROW at the largest width
whose lanes it accepts, else refused (R316). -/
def State.exchanged (s : State) (n : Nat) (r : LinkRec) : State :=
  let l := s.link n
  let ok := fun i => (l.capRx (r.first + i)).agreed && s.capAccepts (r.first + i) r (l.capRx (r.first + i)).last
  let k := ((List.range l.lanes).takeWhile ok).length
  if k = l.lanes ∨ (r.flags / 4 % 2 = 1 ∧ 0 < k) then
    (s.setLink n { l with lanes := if k = l.lanes then k else 2 ^ widthCode k }).enterActive n (l.capRx r.first).last
  else s.stageFail n

/-- A CAP block arrives on a lane in EXCHANGE: once every lane agrees, the link becomes ACTIVE or is refused (R313,
R316). -/
def State.capBlockRx (s : State) (lane : Nat) (block : List Byte) : State :=
  match s.aelbelAt lane with
  | none => s
  | some (n, r) =>
    if s.lnState n ≠ 4 ∨ block.length ≠ 8 ∨ leNum block 0 1 ≠ 0xC6 ∨ 4 ≤ leNum block 1 1 then s
    else
      let l := (s.link n).setCapRx (((s.link n).capRx lane).take block)
      let s1 := s.setLink n l
      if (List.range l.lanes).all fun i => (l.capRx (r.first + i)).agreed then s1.exchanged n r else s1

/-- A stage limit expires with the first `passed` lanes through it (R315, R316): under NARROW the link goes on with the
largest width they form, else the stage has failed. -/
def State.stageTimeout (s : State) (n passed : Nat) : State :=
  match s.aelbelAt n with
  | none => s
  | some (m, r) =>
    let st := s.lnState n
    if m ≠ n ∨ st < 2 ∨ 4 < st then s
    else if r.flags / 4 % 2 = 1 ∧ 0 < passed ∧ passed < (s.link n).lanes then
      let w := 2 ^ widthCode passed
      let s1 := s.setLink n { s.link n with lanes := w }
      if st = 2 then s1.setFld (aLnStat n) 0 3 3
      else if st = 3 then s1.beginExchange n r
      else s1.exchanged n r
    else s.stageFail n

/- Flits (R216 to R220, R319). -/

/-- ORIGIN of a code; reserved codes name nobody. -/
def originOf (c : Nat) : Option Origin :=
  if c < 16 then some (.region c)
  else match c with
    | 0x10 => some .host
    | 0x11 => some .mgmt
    | 0x12 => some .config
    | 0x13 => some .jtag
    | 0x14 => some .trace
    | _ => none

def opCode : ReqOp → Nat
  | .rd => 1
  | .wr => 2
  | .wrb => 3

/-- Field of a flit number. -/
def nf (n lo w : Nat) : Nat := n / 2 ^ lo % 2 ^ w

/-- Header flit of a REQ packet, 16 bytes. -/
def reqFlit (q : Req) : List Byte :=
  bytesOfNat 16 (opCode q.op + 2 ^ 4 * q.urg + 2 ^ 9 * q.dstNode + 2 ^ 16 * q.dstPort + 2 ^ 19 * q.srcNode +
    2 ^ 26 * q.srcPort + 2 ^ 29 * q.tag + 2 ^ 41 * (q.len - 1) + 2 ^ 47 * originCode q.origin + 2 ^ 52 * q.dstDev +
    2 ^ 56 * q.srcDev + 2 ^ 64 * q.addr)

/-- RSP flit. -/
def rspFlit (p : Rsp) : List Byte :=
  bytesOfNat 8 ((if p.grant then 9 else 8) + 2 ^ 4 * p.urg + 2 ^ 9 * p.dstNode + 2 ^ 16 * p.dstPort + 2 ^ 19 * p.tag +
    2 ^ 31 * p.status + 2 ^ 34 * b2n p.poison + 2 ^ 35 * p.dstDev) ++ (p.data ++ zeros 8).take 8

/-- SNP flit, 8 bytes. -/
def snpFlit (p : Snp) : List Byte :=
  bytesOfNat 8 ((if p.ack then 2 else 1) + 2 ^ 4 * p.urg + 2 ^ 9 * p.dstNode + 2 ^ 16 * p.dstPort + 2 ^ 19 * p.srcNode +
    2 ^ 26 * p.line)

/-- Header of a DAT packet. -/
def datHeader (p : Dat) : List Byte :=
  bytesOfNat 8 ((if p.write then 0xD else 0xC) + 2 ^ 4 * p.urg + 2 ^ 9 * p.dstNode + 2 ^ 16 * p.dstPort + 2 ^ 19 * p.tag +
    2 ^ 31 * p.srcNode + 2 ^ 38 * p.srcPort + 2 ^ 41 * b2n p.poison + 2 ^ 42 * p.status + 2 ^ 45 * p.dstDev + 2 ^ 49 * p.srcDev)

/-- The entry, or the two entries of a WR, that carry a packet over a link (R319). Check bits that came with a packet go on
unchanged (R220). -/
def packetEntry : Packet → TxEntry
  | .req q =>
    let head := [0x2, 0] ++ reqFlit q
    { cls := 3, net := 0,
      bytes := if q.op = .wr then head ++ [0x2, 0] ++ (q.data ++ zeros 16).take 16 else head }
  | .rsp p => { cls := 3, net := 1, bytes := [0x2, 1] ++ rspFlit p }
  | .snp p => { cls := 3, net := 2, bytes := [0x2, 2] ++ snpFlit p ++ zeros 8 }
  | .dat p =>
    let d := (p.data ++ zeros 64).take 64
    { cls := 3, net := 3, bytes := [0x3, 0] ++ datHeader p ++ d ++ ((if p.check.isEmpty then checkOf d else p.check) ++ zeros 8).take 8 }

/-- A REQ packet from its header flit, and the data flit of a WR. -/
def reqOfFlit (f data : List Byte) : Option Req :=
  let n := natOfBytes f
  match originOf (nf n 47 5), nf n 0 4 with
  | some o, 1 | some o, 2 | some o, 3 =>
    let len := nf n 41 6 + 1
    let op := if nf n 0 4 = 1 then ReqOp.rd else if nf n 0 4 = 2 then .wr else .wrb
    some { op, urg := nf n 4 4, dstNode := nf n 9 7, dstPort := nf n 16 3, srcNode := nf n 19 7, srcPort := nf n 26 3,
           tag := nf n 29 12, len, origin := o, dstDev := nf n 52 4, srcDev := nf n 56 4, addr := nf n 64 48,
           data := if op = .wr then data.take len else [], poison := false }
  | _, _ => none

/-- An RSP packet from its flit. A reserved OP is taken as CPL, and in the same way on DAT as RDATA and on SNP as INV; a REQ
with a reserved OP or ORIGIN is dropped: the spec gives a reserved code no meaning (DESIGN CHOICE; log 99). -/
def rspOfFlit (f : List Byte) : Rsp :=
  let n := natOfBytes f
  { grant := nf n 0 4 == 9, urg := nf n 4 4, dstNode := nf n 9 7, dstPort := nf n 16 3, tag := nf n 19 12,
    status := nf n 31 3, poison := nf n 34 1 == 1, dstDev := nf n 35 4, data := sub f 8 8 }

/-- An SNP packet from its flit. -/
def snpOfFlit (f : List Byte) : Snp :=
  let n := leNum f 0 8
  { ack := nf n 0 4 == 2, urg := nf n 4 4, dstNode := nf n 9 7, dstPort := nf n 16 3, srcNode := nf n 19 7, line := nf n 26 30 }

/-- A DAT packet from its header, its 64 bytes of block and their check bits. -/
def datOfFlit (h d check : List Byte) : Dat :=
  let n := natOfBytes h
  { write := nf n 0 4 == 0xD, urg := nf n 4 4, dstNode := nf n 9 7, dstPort := nf n 16 3, tag := nf n 19 12,
    srcNode := nf n 31 7, srcPort := nf n 38 3, status := nf n 42 3, poison := nf n 41 1 == 1, dstDev := nf n 45 4,
    srcDev := nf n 49 4, data := d, check }

/- Leaving ACTIVE, short retrains (R317). -/

/-- Regions whose rigging routes cross a link: owners of the X entries that name it, and of entries fed from X, in the
link's tile. -/
def State.linkRegions (s : State) (n : Nat) : List Nat :=
  match (s.link n).conf with
  | some r =>
    if r.mode = 1 ∧ r.classes / 4 % 2 = 1 then
      let t := quadTile (n / 4)
      let idx := (s.xLinks t).findIdx (· == n)
      let own := (s.slots t).filter fun x => (x.out == 4 && x.xq == idx) || x.srcPort == 0xF4
      (List.range 16).filter fun m => own.any fun x => x.owner == m
    else []
  | none => []

/-- A hub's answer UNREACHABLE to a request it cannot forward, or whose answer can no longer come (R224). -/
def State.unreachable (s : State) (t : Nat) (q : Req) : State :=
  s.inject t 6 (answerOf s.pos q stUnreachable [] false)

/-- A queued entry carries a request, or the write data of it. -/
def TxEntry.serves (e : TxEntry) (q : Req) : Bool :=
  e == packetEntry (.req q) ||
  (e.cls == 3 && e.net == 3 &&
    (let d := datOfFlit (sub e.bytes 2 8) [] []
     d.write && d.srcDev == q.srcDev && d.srcNode == q.srcNode && d.srcPort == q.srcPort && d.tag == q.tag))

/-- The link leaves ACTIVE for a state (R317): requests that wait on it are answered UNREACHABLE, and no longer sent (R224). -/
def State.leaveActive (s : State) (n to_ : Nat) : State :=
  if !s.lnActive n then s.setFld (aLnStat n) 0 3 to_
  else
    let l := s.link n
    let t := quadTile (n / 4)
    let s1 := s.forEach ((s.linkRegions n).filter fun m => !s.fenced m) fun s m =>
      s.raise 7 m t 0xFFFF (BitVec.ofNat 64 (n + 2 ^ 8 * (s.fldOf (aLnStat n) 24 4))) false
    let s2 := s1.forEach l.forwarded fun s q => s.unreachable t q
    let s3 := s2.setLink n { s2.link n with
      txq := l.txq.filter fun e => !l.forwarded.any e.serves,
      retry := [], caps := [], stageFails := 0, found := false, forwarded := [], crcBad := 0, replays := 0, nakSent := false, txHeld := false,
      lanes := match l.conf with
        | some r => r.lanes
        | none => 0 }
    let st := putFld (putFld (putFld (putFld (s3.reg (aLnStat n)) 0 3 to_) 3 1 0) 4 4 0) 8 4 0
    ((s3.setReg (aLnStat n) st).count (aLnCnt n) 48 16).linkEvent n 7

/-- A short retrain of both directions begins (R317). -/
def State.beginRetrain (s : State) (n : Nat) : State :=
  if s.lnActive n && !(s.bitOf (aLnStat n) 3 && (s.link n).txHeld) then
    let s1 := (s.setBit (aLnStat n) 3 true).count (aLnCnt n) 32 16
    s1.setLink n ({ s.link n with txHeld := true }.send (List.replicate 4 (.control 0xCD)))
  else s

/-- A short retrain of one direction begins (R325): `tx` holds the frames of the transmit direction. -/
def State.wakeRetrain (s : State) (n : Nat) (tx : Bool) : State :=
  let s1 := (s.setBit (aLnStat n) 3 true).count (aLnCnt n) 32 16
  s1.setLink n { s1.link n with txHeld := tx || (s1.link n).txHeld }

/-- The transmit direction is brought out of electrical idle, by a training burst and ALIGN, or out of sleep, by a short
retrain of that direction (R324, R325). -/
def State.txWake (s : State) (n : Nat) : State :=
  match s.fldOf (aLnStat n) 4 2 with
  | 1 => (s.setFld (aLnStat n) 4 2 0).linkSend n [.burst, .control 0xC3]
  | 2 => (s.setFld (aLnStat n) 4 2 0).wakeRetrain n true
  | _ => s

/-- The outstanding frames sent again, unless a retrain holds them. -/
def State.resend (s : State) (n : Nat) : State :=
  let l := s.link n
  if l.txHeld then s else s.setLink n (l.send (l.retry.map fun f => .frame f.2))

/-- Every outstanding frame sent again (R321), a resting direction being woken first (R324, R325); the fourth replay without
progress begins a short retrain, the eighth takes the link down; frames are held during a retrain (R317). -/
def State.replay (s : State) (n : Nat) : State :=
  let l := s.link n
  if !s.lnActive n || l.txHeld || l.retry.isEmpty then s
  else
    let s0 := s.txWake n
    let s1 := ((s0.setLink n { s0.link n with replays := l.replays + 1 }).resend n).count (aLnCnt n) 16 16
    if 8 ≤ l.replays + 1 then s1.leaveActive n 1
    else if l.replays + 1 = 4 then s1.beginRetrain n
    else s1

/-- A short retrain ends (R317): where the transmit direction took part, its traffic resumes from the retry buffer (R325). -/
def State.retrainComplete (s : State) (n : Nat) (ok : Bool) : State :=
  if s.lnActive n && s.bitOf (aLnStat n) 3 then
    if ok then
      let l := s.link n
      let s1 := s.setBit (aLnStat n) 3 false
      if l.txHeld then (s1.setLink n { l with txHeld := false }).resend n else s1
    else s.leaveActive n 1
  else s

/-- The window of 1 ms closes (R317). -/
def State.crcWindow (s : State) (n : Nat) : State :=
  let l := s.link n
  match l.conf with
  | some r =>
    let s1 := s.setLink n { l with crcBad := 0 }
    if r.errLimit < l.crcBad then s1.beginRetrain n else s1
  | none => s

/-- A lane loses block lock (R317, R327). -/
def State.lockLoss (s : State) (lane : Nat) (long : Bool) : State :=
  match s.linkAt lane with
  | none => s
  | some n =>
    if !s.lnActive n then s
    else match (s.link n).conf with
      | some r =>
        if r.mode ≠ 1 then ((s.setFld (aLnStat n) 0 3 3).count (aLnCnt n) 48 16).linkEvent n 7
        else if long then s.leaveActive n 1 else s.beginRetrain n
      | none => s

/-- Block lock of an Ethernet or raw lane (R327, R328). -/
def State.pcsLock (s : State) (lane : Nat) (locked : Bool) : State :=
  match s.linkAt lane with
  | none => s
  | some n => match (s.link n).conf with
    | some r =>
      if r.mode < 2 ∨ (s.lnState n ≠ 3 ∧ s.lnState n ≠ 5) then s
      else if locked then
        if s.lnActive n then s else (s.setFld (aLnStat n) 0 3 5).linkEvent n 0
      else s.lockLoss lane true
    | none => s

/- Queues and credits (R318, R320). -/

/-- Key of a class and network in the credit maps. -/
def clsKey (cls net : Nat) : Nat := 4 * cls + net

/-- Receive places of a class (R318). -/
def clsPlaces (cls : Nat) : Nat :=
  match cls with
  | 0 => 32
  | 1 => 16
  | 2 => 192
  | _ => 64

/-- Entries that a queued item is sent as: two for a WR packet. -/
def TxEntry.entries (e : TxEntry) : Nat := if e.cls = 3 ∧ e.bytes.length = 36 then 2 else 1

/-- A message of a class put into a link's queue, in MSG entries of at most 240 bytes (R319). -/
def State.linkMsg (s : State) (n cls : Nat) (payload : List Byte) : State :=
  let l := s.link n
  let e : TxEntry := { cls, net := 0, bytes := bytesOfNat 1 (5 + 16 * cls) ++ bytesOfNat 1 payload.length ++ payload }
  s.setLink n { l with txq := l.txq ++ [e] }

/-- A packet handed by a lane hub to the link toward its destination (R215, R224). -/
def State.hubForward (s : State) (t : Nat) (dev : Nat) (p : Packet) : State :=
  let n := s.fldOf (aCascRoute dev) 1 8
  let l := s.link n
  if s.bitOf (aCascRoute dev) 0 && s.lnActive n && bit (BitVec.ofNat 64 l.classesOn) 3 then
    let fwd := match p with
      | .req q => l.forwarded ++ [q]
      | _ => l.forwarded
    s.setLink n { l with txq := l.txq ++ [packetEntry p], forwarded := fwd }
  else match p with
    | .req q => s.unreachable t q
    | _ => s

/-- Order in which the classes are served, as (class, network) (R320). -/
def servingOrder : List (Nat × Nat) := [(0, 0), (1, 0), (2, 0), (3, 1), (3, 3), (3, 2), (3, 0), (4, 0), (5, 0)]

/-- The first queued entry of a class that the link carries and that has a credit (R316, R320). -/
def Link.ready (l : Link) (c : Nat × Nat) : Option TxEntry :=
  match l.txq.find? fun e => e.cls == c.1 && e.net == c.2 with
  | some e =>
    let k := clsKey c.1 c.2
    if l.classesOn.testBit c.1 ∧ mapGet (fun _ => 0) l.sent k + e.entries ≤ mapGet (fun _ => 0) l.freed k + clsPlaces c.1 then some e else none
  | none => none

/-- Classes with an entry to send, each with the frames that have not served it. -/
def Link.waits (l : Link) : List (Nat × Nat) :=
  ((List.range 6).filter fun c => servingOrder.any fun x => x.1 == c && (l.ready x).isSome).map fun c =>
    (c, mapGet (fun _ => 0) l.unserved c)

/-- Place of a class among the waiting ones, those that have waited longest first. -/
def waitRank (ws : List (Nat × Nat)) (x : Nat × Nat) : Nat :=
  (ws.filter fun y => decide (x.2 < y.2 ∨ (x.2 = y.2 ∧ y.1 < x.1))).length

/-- The class that a frame serves first, out of its priority: were the waiting classes served one a frame from here on, one of
them would otherwise not be served within 8 frames (R320; log 106). -/
def Link.dueClass (l : Link) : Option Nat :=
  let ws := l.waits
  if ws.any fun x => decide (7 ≤ x.2 + waitRank ws x) then (ws.find? fun x => waitRank ws x == 0).map (·.1) else none

/-- The next entry to send: as the first of a frame one of the class that is due, else by priority. -/
def Link.nextEntry (l : Link) (served : List Nat) : Option TxEntry :=
  let due := if served.isEmpty then servingOrder.filter fun c => some c.1 == l.dueClass else []
  (due ++ servingOrder).findSome? l.ready

/-- Fills content while the next entry fits; answers the link, the content and the classes served. -/
def fillFrame : Nat → Link → List Byte → List Nat → Link × List Byte × List Nat
  | 0, l, c, served => (l, c, served)
  | fuel + 1, l, c, served =>
    match l.nextEntry served with
    | none => (l, c, served)
    | some e =>
      if 244 < c.length + e.bytes.length then (l, c, served)
      else
        let k := clsKey e.cls e.net
        let txq := match takeFirst (fun x => x == e) l.txq with
          | some (_, rest) => rest
          | none => l.txq
        fillFrame fuel { l with txq, sent := mapSet (fun _ => 0) l.sent k (mapGet (fun _ => 0) l.sent k + e.entries) }
          (c ++ e.bytes) (k :: served)

/-- A class whose freed places the partner has not been told. -/
def Link.untold (l : Link) : Nat :=
  match servingOrder.find? fun c =>
      mapGet (fun _ => 0) l.ownFreed (clsKey c.1 c.2) != mapGet (fun _ => 0) l.told (clsKey c.1 c.2) with
  | some c => clsKey c.1 c.2
  | none => 0

/-- Sequence number before `n`. -/
def seqBefore (n : Nat) : Nat := (n + 4095) % 4096

/-- A frame is sent (R318, R320, R321). -/
def State.frameTransmit (s : State) (n : Nat) : State :=
  let l := s.link n
  if !s.lnActive n || l.txHeld || s.fldOf (aLnStat n) 4 2 != 0 || decide (16 * l.lanes ≤ l.retry.length) ||
      (l.nextEntry []).isNone then s
  else
    let (l1, c, served) := fillFrame 122 l [] []
    let k := l1.untold
    let count := mapGet (fun _ => 0) l1.ownFreed k
    let body := [0xCA] ++ bytesOfNat 2 l1.txSeq ++ bytesOfNat 2 (seqBefore l1.rxNext) ++
      bytesOfNat 1 (k / 4 + (if k / 4 = 3 then 16 * (k % 4) else 0)) ++ bytesOfNat 2 count ++ (c ++ zeros 244).take 244
    let frame := body ++ bytesOfNat 4 (crc32 body)
    let unserved := (l1.waits.filter fun x => !served.any fun i => i / 4 == x.1).foldl (fun m x => mapSet (fun _ => 0) m x.1 (x.2 + 1)) []
    s.setLink n ({ l1 with txSeq := (l1.txSeq + 1) % 4096, retry := l1.retry ++ [(l1.txSeq, frame)], unserved,
                           told := mapSet (fun _ => 0) l1.told k count }.send [.frame frame])

/- Reception (R311, R319, R321). -/

/-- An acknowledgement field: the frames up to the one it names are released; NAK asks for a replay. -/
def State.takeAck (s : State) (n : Nat) (ack : Nat) : State :=
  let l := s.link n
  let seq := ack % 4096
  let s1 :=
    if l.retry.any fun f => f.1 == seq then
      s.setLink n { l with retry := (l.retry.dropWhile fun f => f.1 != seq).drop 1, replays := 0 }
    else s
  if ack / 4096 % 2 = 1 then s1.replay n else s1

/-- A cumulative count of freed places modulo 65,536 taken up. -/
def Link.takeCredit (l : Link) (cls count : Nat) : Link :=
  let k := clsKey (cls % 16) (if cls % 16 = 3 then cls / 16 % 4 else 0)
  let old := mapGet (fun _ => 0) l.freed k
  { l with freed := mapSet (fun _ => 0) l.freed k (old + (count + 65536 - old % 65536) % 65536) }

/-- Places of a class freed at this end. -/
def State.freeOwn (s : State) (n k j : Nat) : State :=
  let l := s.link n
  s.setLink n { l with ownFreed := mapSet (fun _ => 0) l.ownFreed k (mapGet (fun _ => 0) l.ownFreed k + j) }

/-- A packet received over a link goes to the hub, which injects it (R215); an answer to a request that the hub has
forwarded ends its keeping, and an answer to one it no longer keeps is discarded (R224). -/
def State.hubReceive (s : State) (n : Nat) (p : Packet) : State :=
  let t := quadTile (n / 4)
  let l := s.link n
  let mine := fun (dev node port tag : Nat) (q : Req) => q.srcDev == dev && q.srcNode == node && q.srcPort == port && q.tag == tag
  match p with
  | .rsp r =>
    match takeFirst (mine r.dstDev r.dstNode r.dstPort r.tag) l.forwarded with
    | some (_, rest) => (if r.grant then s else s.setLink n { l with forwarded := rest }).inject t 6 p
    | none => s
  | .dat d =>
    if d.write then s.inject t 6 p
    else match takeFirst (mine d.dstDev d.dstNode d.dstPort d.tag) l.forwarded with
      | some (_, rest) => (s.setLink n { l with forwarded := rest }).inject t 6 p
      | none => s
  | _ => s.inject t 6 p

/-- The content of an accepted frame, entry by entry (R319). -/
def rxEntries : Nat → Nat → List Byte → State → State
  | 0, _, _, s => s
  | fuel + 1, n, c, s =>
    let t := quadTile (n / 4)
    let b0 := leNum c 0 1
    match b0 % 16 with
    | 0x1 =>
      let v := leNum c 0 10
      let b : Bundle := { data := BitVec.ofNat 64 (v / 2 ^ 16), gen := v / 16 % 2 == 1, half := v / 32 % 2,
                          slot := v / 64 % 1024, vc := 0, owner := regionOfTile t }
      if c.length < 10 then s else rxEntries fuel n (c.drop 10) (s.arrive t 4 (xKey n) b)
    | 0x2 =>
      if c.length < 18 then s
      else match leNum c 1 1 with
        | 0 =>
          let h := sub c 2 16
          if natOfBytes h % 16 = 2 then
            let s1 := match reqOfFlit h (sub c 20 16) with
              | some q => s.hubReceive n (.req q)
              | none => s
            if c.length < 36 then s else rxEntries fuel n (c.drop 36) (s1.freeOwn n (clsKey 3 0) 2)
          else
            let s1 := match reqOfFlit h [] with
              | some q => s.hubReceive n (.req q)
              | none => s
            rxEntries fuel n (c.drop 18) (s1.freeOwn n (clsKey 3 0) 1)
        | 1 => rxEntries fuel n (c.drop 18) ((s.hubReceive n (.rsp (rspOfFlit (sub c 2 16)))).freeOwn n (clsKey 3 1) 1)
        | 2 => rxEntries fuel n (c.drop 18) ((s.hubReceive n (.snp (snpOfFlit (sub c 2 8)))).freeOwn n (clsKey 3 2) 1)
        | _ => s
    | 0x3 =>
      if c.length < 82 then s
      else rxEntries fuel n (c.drop 82)
        ((s.hubReceive n (.dat (datOfFlit (sub c 2 8) (sub c 10 64) (sub c 74 8)))).freeOwn n (clsKey 3 3) 1)
    | 0x4 => rxEntries fuel n (c.drop 4) (s.setLink n ((s.link n).takeCredit (leNum c 1 1) (leNum c 2 2)))
    | 0x5 =>
      let k := leNum c 1 1
      let l := s.link n
      let e : TxEntry := { cls := b0 / 16, net := 0, bytes := sub c 2 k }
      -- the firmware takes a MGMT message, the hub a TRACE message, at once (log 107)
      let s1 := if e.cls = 1 ∨ e.cls = 4 then s.setLink n { l with inbox := l.inbox ++ [e] } else s.freeOwn n (clsKey e.cls 0) 1
      if c.length < 2 + k then s else rxEntries fuel n (c.drop (2 + k)) s1
    | _ => s

/-- An IDLE block with the acknowledgement of the last frame accepted; a resting direction is woken for it. -/
def State.sendIdle (s : State) (n : Nat) (nak : Bool) : State :=
  (s.txWake n).linkSend n [.ack (seqBefore (s.link n).rxNext) nak]

/-- NAK sent once, until the expected frame has been accepted (R321). -/
def State.sendNak (s : State) (n : Nat) : State :=
  let l := s.link n
  if l.nakSent then s else (s.setLink n { l with nakSent := true }).sendIdle n true

/-- The acknowledgement of an accepted frame goes out in an IDLE block where no frame is ready to carry it (R321). -/
def State.acknowledge (s : State) (n : Nat) : State :=
  if ((s.link n).nextEntry []).isNone then s.sendIdle n false else s

/-- A frame is received (R321). -/
def State.frameRx (s : State) (n : Nat) (f : List Byte) : State :=
  if !s.lnActive n then s
  else if f.length ≠ 256 ∨ leNum f 0 1 ≠ 0xCA ∨ leNum f 252 4 ≠ crc32 (f.take 252) then
    let s1 := s.count (aLnCnt n) 0 16
    (s1.setLink n { s1.link n with crcBad := (s1.link n).crcBad + 1 }).sendNak n
  else
    let l := s.link n
    let seq := leNum f 1 2 % 4096
    if seq = l.rxNext then
      let s1 := s.setLink n ({ l with rxNext := (l.rxNext + 1) % 4096, nakSent := false }.takeCredit (leNum f 5 1) (leNum f 6 2))
      (rxEntries 123 n (sub f 8 244) (s1.takeAck n (leNum f 3 2))).acknowledge n
    else if (l.rxNext + 4095 - seq) % 4096 < 2048 then (s.takeAck n (leNum f 3 2)).sendIdle n false
    else (s.takeAck n (leNum f 3 2)).sendNak n

/-- A control block other than CAP, ALIGN, SKIP and FRAME is received (R311, R324, R325). -/
def State.controlRx (s : State) (n : Nat) (b : List Byte) : State :=
  match leNum b 0 1 with
  | 0xC0 =>
    if leNum b 7 1 = crc8 (bitsOfBytes (b.take 7)) ∧ b.length = 8 then
      if s.lnActive n then s.takeAck n (leNum b 3 2) else s
    else s.count (aLnMon n) 0 16
  | 0xCC => s.setFld (aLnStat n) 6 2 1
  | 0xCD => s.beginRetrain n
  | 0xCF => s.setFld (aLnStat n) 6 2 2
  | 0xC3 | 0xC5 | 0xC6 | 0xCA => s
  | _ => s.count (aLnMon n) 0 16

/-- Blocks that a lane of a RATE receives between two ticks. -/
def State.skewOf (s : State) (rate a b : Nat) : Nat := s.blocksBy rate (max a b) - s.blocksBy rate (min a b)

/-- An ALIGN block on a lane: it ends electrical idle of the receiving direction (R324), and is matched with the ALIGN of the
same MARKER_SEQ on the link's first lane, whose distance in blocks is the lane's SKEW (R312, R331; log 105). -/
def State.alignRx (s : State) (lane : Nat) (b : List Byte) : State :=
  match s.aelbelAt lane with
  | none => s
  | some (n, r) =>
    if leNum b 0 1 ≠ 0xC3 then s
    else
      let l := s.link n
      let got := l.aligns.filter (fun x => x.1 != lane) ++ [(lane, leNum b 2 2, s.tb)]
      let s1 := s.setLink n { l with aligns := got }
      let s2 := if s.fldOf (aLnStat n) 6 2 = 1 then s1.setFld (aLnStat n) 6 2 0 else s1
      match got.find? fun x => x.1 == r.first with
      | none => s2
      | some f => s2.forEach (got.filter fun x => x.2.1 == f.2.1 && x.1 != r.first) fun s x =>
          s.setFld (aLnMon x.1) 48 8 (min 255 (s.skewOf r.rate x.2.2 f.2.2))

/-- A SKIP block deleted or inserted by the elastic buffer (R312, R331). -/
def State.skipRx (s : State) (lane : Nat) (inserted deleted : Bool) : State :=
  s.count (aLnMon lane) 32 16 (b2n inserted + b2n deleted)

/- Low power, adaptation, raw lanes (R323 to R328). -/

/-- Electrical idle, or sleep, of the transmit direction, where both ends allow it (R324, R325). -/
def State.txRest (s : State) (n bitNo code power : Nat) : State :=
  let l := s.link n
  match l.conf with
  | some r =>
    if s.lnActive n && !l.txHeld && r.flags / 2 ^ bitNo % 2 == 1 && l.partnerPower / 2 ^ bitNo % 2 == 1 &&
        decide (s.fldOf (aLnStat n) 4 2 < power) then
      (s.setFld (aLnStat n) 4 2 power).linkSend n (List.replicate 4 (.control code))
    else s
  | none => s

/-- A ready entry ends electrical idle of the transmit direction (R324). -/
def State.eidleExit (s : State) (n : Nat) : State :=
  if s.fldOf (aLnStat n) 4 2 = 1 ∧ ((s.link n).nextEntry []).isSome then s.txWake n else s

/-- A sleeping direction is woken and retrains, that direction only (R325): the receiver by its squelch detector, or the
transmitter for a ready entry. -/
def State.sleepWake (s : State) (n : Nat) : State :=
  if s.fldOf (aLnStat n) 6 2 = 2 then (s.setFld (aLnStat n) 6 2 0).wakeRetrain n false
  else if s.fldOf (aLnStat n) 4 2 = 2 ∧ ((s.link n).nextEntry []).isSome then s.txWake n
  else s

/-- A window of 1,024 blocks ends with a number of transitions (R323). -/
def State.adaptWindow (s : State) (lane transitions : Nat) : State :=
  match s.linkAt lane with
  | none => s
  | some n => match (s.link n).conf with
    | some r =>
      let d := if r.densMin = 0 then 30 else r.densMin
      if !s.lnActive n then s
      else if transitions * 100 < d * 67584 then
        if s.bitOf (aLnStat lane) 14 then s else (s.setBit (aLnStat lane) 14 true).count (aLnMon lane) 16 16
      else s.setBit (aLnStat lane) 14 false
    | none => s

/-- TB ticks of the 125 µs window of the BER monitor (R327; log 101). -/
def State.berTicks (s : State) : Nat := 125 * s.usTicks

/-- The BER monitor takes up a sync header: 16 invalid ones in a window raise the high error rate, a window with fewer ends
it (R327; log 101). -/
def Link.ber (l : Link) (window : Nat) (bad : Bool) : Link :=
  let fresh := decide (l.berAt ≠ window)
  let n := (if fresh then 0 else l.berBad) + b2n bad
  { l with berAt := window, berBad := n, hiBer := decide (16 ≤ n) || (if fresh then l.hiBer && decide (16 ≤ l.berBad) else l.hiBer) }

/-- A block received on an Ethernet lane, descrambled and decoded to a transfer of the PCS client interface; under a high
error rate the client sees local fault (R260, R327; log 101). -/
def State.ethernetRx (s : State) (lane sync : Nat) (payload : W64) : State :=
  let l := (s.link lane).ber (s.tb / s.berTicks) (sync != 1 && sync != 2)
  let q := descramble 64 l.scrRx payload.toNat
  let x := if l.hiBer then pcsLocalFault else pcsDecode sync (BitVec.ofNat 64 q.2)
  let s1 := s.setLink lane { l with scrRx := q.1 }
  { s1 with rawRx := s1.rawRx ++ [(lane, x)] }

/-- A block received on a raw or Ethernet lane reaches the lane's glue region (R238, R260, R327, R328). -/
def State.rawRxBlock (s : State) (lane sync : Nat) (payload : W64) : State :=
  let m := s.activeMode lane
  if m < 2 then s
  else
    let s1 := if sync % 4 = 1 ∨ sync % 4 = 2 then s else s.count (aLnMon lane) 0 16
    if m = 4 then { s1 with rawRx := s1.rawRx ++ [(lane, sync % 4, payload)] }
    else s1.ethernetRx lane (sync % 4) payload

/- LANE_SET and START (R330). -/

/-- Lanes of the link in force or recorded at a first lane. -/
def State.linkLanes (s : State) (n : Nat) : List Nat :=
  match (s.link n).conf, (s.link n).recorded with
  | some r, _ | none, some r => (List.range r.lanes).map fun i => r.first + i
  | none, none => []

/-- A link taken down (R317, R330). -/
def State.takeDown (s : State) (n : Nat) : State :=
  let s1 := s.leaveActive n 0
  let l := s1.link n
  (s1.setLink n { out := l.out, wire := l.wire, mgmt := l.mgmt, test := l.test }).setReg (aLnStat n) 0

/-- One accepted record: a link taken down, brought up, or recorded for START. The lanes of a link that is not a management
link are claimed for HOST (R310). -/
def State.laneSet (s : State) (r : LinkRec) : State :=
  let l := s.link r.first
  if r.mode = 0 then s.takeDown r.first
  else
    let s1 := if l.mgmt then s else s.forEach (List.range r.lanes) fun s i => s.setClaim 1 (r.first + i) 1
    if l.mgmt ∨ s.devState = 2 then (s1.leaveActive r.first 1).bringUp r l.mgmt
    else s1.setLink r.first { l with recorded := some r }

/-- Every recorded link begins to come up (R293, R330). -/
def State.lanesStart (s : State) : State :=
  s.forEach (s.links.map (·.1)) fun s n => match (s.link n).recorded with
    | some r => s.bringUp r (s.link n).mgmt
    | none => s

/-- STOP: every link that is not a management link goes down; its record stays for the next START (R294). -/
def State.lanesStop (s : State) : State :=
  s.forEach (s.links.map (·.1)) fun s n =>
    let l := s.link n
    if l.mgmt then s
    else match l.conf with
      | some r =>
        let s1 := s.takeDown n
        s1.setLink n { s1.link n with recorded := some r }
      | none => s

end Sys2Proof.Machine
end

