-- ==== Sys2Proof/Machine/Fp.lean ====
section
/-! DEFINITION. Floating-point arithmetic of the stream arrays (R139): IEEE 754-2019 binary32 and binary16, rounding to
nearest with ties to even, subnormals kept, canonical NaNs. Finite values are exact: a sign, a natural number and an
exponent of two; each operation computes exactly and rounds once. -/

namespace Sys2Proof.Machine

/-- A binary format: fraction bits and exponent bits. -/
structure FpFmt where
  frac : Nat
  ex : Nat
  deriving DecidableEq, Repr

def fp32 : FpFmt := ⟨23, 8⟩
def fp16 : FpFmt := ⟨10, 5⟩

/-- Exponent of the last bit of a subnormal number: -149 for binary32, -24 for binary16. -/
def FpFmt.minExp (f : FpFmt) : Int := 2 - 2 ^ (f.ex - 1) - f.frac

/-- The bits of infinity, without the sign. -/
def FpFmt.infBits (f : FpFmt) : Nat := (2 ^ f.ex - 1) * 2 ^ f.frac

/-- The sign bit. -/
def FpFmt.signBit (f : FpFmt) : Nat := 2 ^ (f.frac + f.ex)

/-- The canonical NaN. -/
def FpFmt.nan (f : FpFmt) : Nat := f.infBits + 2 ^ (f.frac - 1)

/-- A floating-point datum: NaN, an infinity, or a signed `m * 2 ^ e`. -/
inductive Fp where
  | nan
  | inf (neg : Bool)
  | num (neg : Bool) (m : Nat) (e : Int)
  deriving DecidableEq, Repr

/-- The datum that bits of a format stand for. -/
def FpFmt.read (f : FpFmt) (n : Nat) : Fp :=
  let neg := decide (n / f.signBit % 2 = 1)
  let e := n / 2 ^ f.frac % 2 ^ f.ex
  let m := n % 2 ^ f.frac
  if e = 2 ^ f.ex - 1 then (if m = 0 then .inf neg else .nan)
  else if e = 0 then .num neg m f.minExp
  else .num neg (m + 2 ^ f.frac) (f.minExp + (e - 1 : Nat))

/-- `m * 2 ^ -k` rounded to an integer, to nearest with ties to even. -/
def roundShift (m k : Nat) : Nat :=
  let q := m / 2 ^ k
  let r := m % 2 ^ k
  if k = 0 then m else if 2 ^ (k - 1) < r ∨ (r = 2 ^ (k - 1) ∧ q % 2 = 1) then q + 1 else q

/-- A sign and a magnitude in a format. -/
def FpFmt.withSign (f : FpFmt) (neg : Bool) (n : Nat) : Nat := if neg then f.signBit + n else n

/-- The bits of a datum in a format, rounded once. -/
def FpFmt.write (f : FpFmt) : Fp → Nat
  | .nan => f.nan
  | .inf neg => f.withSign neg f.infBits
  | .num neg m e =>
    if m = 0 then f.withSign neg 0
    else
      let lsb := max f.minExp (e + (Nat.log2 m : Int) - f.frac)
      let q := if e ≤ lsb then roundShift m (lsb - e).toNat else m * 2 ^ (e - lsb).toNat
      let n := (lsb - f.minExp).toNat * 2 ^ f.frac + q
      f.withSign neg (min n f.infBits)

def Fp.isNeg : Fp → Bool
  | .nan => false
  | .inf n => n
  | .num n _ _ => n

def Fp.neg : Fp → Fp
  | .nan => .nan
  | .inf n => .inf (!n)
  | .num n m e => .num (!n) m e

/-- A signed integer times a power of two. -/
def fpOfInt (i e : Int) (zeroNeg : Bool) : Fp := .num (if i = 0 then zeroNeg else decide (i < 0)) i.natAbs e

/-- The signed significand of a finite datum at a lower exponent. -/
def scaled (neg : Bool) (m : Nat) (e lo : Int) : Int :=
  let v : Int := (m * 2 ^ (e - lo).toNat : Nat)
  if neg then -v else v

/-- Exact sum. A sum that is zero is -0 only when both terms are -0. -/
def fpAdd : Fp → Fp → Fp
  | .nan, _ | _, .nan => .nan
  | .inf a, .inf b => if a = b then .inf a else .nan
  | .inf a, _ | _, .inf a => .inf a
  | .num na ma ea, .num nb mb eb =>
    let lo := min ea eb
    fpOfInt (scaled na ma ea lo + scaled nb mb eb lo) lo (na && nb && ma == 0 && mb == 0)

/-- Exact product. -/
def fpMul : Fp → Fp → Fp
  | .nan, _ | _, .nan => .nan
  | .inf a, .inf b => .inf (a != b)
  | .inf a, .num b m _ => if m = 0 then .nan else .inf (a != b)
  | .num a m _, .inf b => if m = 0 then .nan else .inf (a != b)
  | .num na ma ea, .num nb mb eb => .num (na != nb) (ma * mb) (ea + eb)

/-- Quotient 1 / x with enough bits, and a sticky bit, to round correctly. -/
def fpRcp : Fp → Fp
  | .nan => .nan
  | .inf a => .num a 0 0
  | .num a m e =>
    if m = 0 then .inf a
    else .num a (2 * (2 ^ 80 / m) + b2n (decide (2 ^ 80 % m ≠ 0))) (-81 - e)

/-- x < y for data that are not NaN; `signedZero` orders -0 below +0. -/
def fpLt (signedZero : Bool) : Fp → Fp → Bool
  | .nan, _ | _, .nan => false
  | .inf a, .inf b => a && !b
  | .inf a, _ => a
  | _, .inf b => !b
  | .num na ma ea, .num nb mb eb =>
    let lo := min ea eb
    let x := scaled na ma ea lo
    let y := scaled nb mb eb lo
    decide (x < y) || (signedZero && x == 0 && y == 0 && na && !nb)

/-- x = y in the sense of R139: NaN equals nothing, -0 equals +0. -/
def fpEq : Fp → Fp → Bool
  | .nan, _ | _, .nan => false
  | .inf a, .inf b => a == b
  | .inf _, _ | _, .inf _ => false
  | .num na ma ea, .num nb mb eb =>
    let lo := min ea eb
    scaled na ma ea lo == scaled nb mb eb lo

/-- Minimum (`big` false) or maximum of R139: the other operand when exactly one is a NaN. -/
def fpMinMax (big : Bool) (x y : Fp) : Fp :=
  match x, y with
  | .nan, y => y
  | x, .nan => x
  | x, y => if fpLt true x y != big then x else y

/-- Truncation toward zero to a signed 32-bit integer, saturating; a NaN gives 0 (R139). -/
def fpToInt : Fp → Int
  | .nan => 0
  | .inf neg => if neg then -(2 ^ 31) else 2 ^ 31 - 1
  | .num neg m e =>
    let q : Int := if 0 ≤ e then (m * 2 ^ e.toNat : Nat) else (m / 2 ^ (-e).toNat : Nat)
    let v := if neg then -q else q
    max (-(2 ^ 31)) (min (2 ^ 31 - 1) v)

end Sys2Proof.Machine
end

