-- ==== Sys2Proof/Machine/Scratchpad.lean ====
section
/-! DEFINITION. Scratchpad banks (R171 to R183): arbitration, word accesses with their errors, bank power states. -/

namespace Sys2Proof.Machine

/-- Base of a bank in the internal map (R171). -/
def bankBase (t b : Nat) : Nat := 0x10_0000_0000 + 0x20_0000 * t + 0x2_0000 * b

/-- Effective state of a bank: 0 ON, 1 RETENTION, 2 OFF (R179). -/
def State.bankState (s : State) (t b : Nat) : Nat := s.fldOf (aSpPwr t) (32 + 2 * b) 2

/-- The request is of class NOC or DBG. -/
def BankReq.outside (q : BankReq) : Bool := match q.src with
  | .noc _ | .dbg _ => true
  | _ => false

/-- Place of a request in the fixed order of classes (R175, R176): lower goes first. -/
def BankReq.rank (compat : Bool) (q : BankReq) : Nat := match q.src with
  | .mm _ => if compat then 8 else 0
  | .sa p => if compat then p else 1 + p
  | .noc _ => 9
  | .dbg _ => 10

/-- The first request of lowest rank, in order of arrival. -/
def firstRank (compat : Bool) : List BankReq → Option BankReq
  | [] => none
  | q :: rest => match firstRank compat rest with
    | none => some q
    | some r => if r.rank compat < q.rank compat then some r else some q

/-- The effective state that SP_PWR and the compute domain ask of a bank (R179). A request of the reserved code 3 leaves
the bank as it stands (log 22). -/
def State.bankWanted (s : State) (t b : Nat) : Nat :=
  let req := s.fldOf (aSpPwr t) (2 * b) 2
  if req = 3 then s.bankState t b else max req (s.fldOf (aTilePwr t) 0 2)

/-- A granted access of the bank has a cycle to come: the second one of a partial write, or further words. -/
def Bank.underWay (k : Bank) : Bool := k.second.isSome || k.queue.any fun q => !q.got.isEmpty

/-- The bank leaves ON, and first completes the access it has granted (R180). -/
def State.bankLeaving (s : State) (t b : Nat) : Bool := s.bankState t b == 0 && s.bankWanted t b != 0

/-- The request a bank grants, and whether the age guard made the grant (R175, R176). A bank about to leave ON grants
nothing but the words that an access granted before still lacks (R180). -/
def State.bankChoice (s : State) (t b : Nat) : Option (BankReq × Bool) :=
  let l := (s.bank (bankKey t b)).queue.filter fun q => !s.bankLeaving t b || !q.got.isEmpty
  let cfg := s.reg (aSpCfg t)
  let age := fld cfg 1 8
  match if !bit cfg 0 && decide (0 < age) then l.find? (fun q => q.outside && decide (age ≤ q.lost)) else none with
  | some q => some (q, true)
  | none => (firstRank (bit cfg 0) l).map fun q => (q, false)

/-- The bytes of a request that lie in the word its progress stands at: address and length. -/
def BankReq.chunk (q : BankReq) (progress : Nat) : Nat × Nat :=
  let a := q.addr + progress
  (a, min (8 - a % 8) (q.len - progress))

/-- A single-bit error met in a bank: counted, named, and a write back owed (R182, R183). -/
def State.bankCe (s : State) (t b a : Nat) : State :=
  let s1 := s.count (aSpErr t) 0 16
  let s2 := s1.setReg (aSpErr t) (putFld (putFld (s1.reg (aSpErr t)) 16 4 b) 20 14 (a / 8 % 16384))
  let k := s2.bank (bankKey t b)
  s2.setBank (bankKey t b) { k with owed := k.owed ++ [a / 8 * 8] }

/-- An uncorrectable error met in a bank (R182, R183). -/
def State.bankUe (s : State) (t b : Nat) : State := (s.count (aSpErr t) 34 16).setFld (aSpErr t) 50 4 b

/-- The packet of a NOC or DBG request. -/
def BankReq.packet (q : BankReq) : Option Req := match q.src with
  | .noc r | .dbg r => some r
  | _ => none

/-- A NOC or DBG access to a bank that is neither ON nor moving to ON: an error response, counted (R180). -/
def State.bankRefuse (s : State) (t : Nat) (q : Req) : State := (s.count (aSpErr t) 54 10).answer q stDenied [] false

/-- What a request whose last word is performed answers. -/
structure BankDone where
  src : BankSrc
  addr : Nat
  write : Bool
  /-- No uncorrectable error was met. -/
  ok : Bool
  data : List Byte
  deriving DecidableEq, Repr

/-- The next word of a request, written: the whole word, or the second cycle of a partial write. -/
def State.bankPut (s : State) (q : BankReq) : State × BankReq :=
  let (a, n) := q.chunk q.got.length
  (s.store a (sub q.data q.got.length n) q.poison, { q with got := q.got ++ zeros n })

/-- One cycle of a request at its bank (R172, R182): a word read, a whole word written, or the read step of a partial
write, whose second cycle is still to come unless the word holds an uncorrectable error. Answers the state, the request as
it then stands (`got` grows by the bytes of the word, read or written), and whether the second cycle follows. -/
def State.bankWord (s : State) (t b : Nat) (q : BankReq) : State × BankReq × Bool :=
  let (a, n) := q.chunk q.got.length
  let e := s.eccOf a
  if q.write then
    if n < 8 then
      if e = 2 then (s.bankUe t b, { q with got := q.got ++ zeros n, bad := true }, false)
      else (if e = 1 then s.bankCe t b a else s, q, true)
    else let r := s.bankPut q; (r.1, r.2, false)
  else
    let s1 := if e = 1 then s.bankCe t b a else if e = 2 then s.bankUe t b else s
    (s1, { q with got := q.got ++ s.bytes a n, bad := q.bad || e == 2 }, false)

/-- Counts of the classes that lost a cycle (R183). -/
def State.bankLosers (s : State) (t : Nat) (l : List BankReq) : State :=
  let s1 := if l.any (fun q => match q.src with
    | .mm _ => true
    | _ => false) then s.count (aSpCnt t) 0 16 else s
  let s2 := if l.any (fun q => match q.src with
    | .sa _ => true
    | _ => false) then s1.count (aSpCnt t) 16 16 else s1
  if l.any (·.outside) then s2.count (aSpCnt t) 32 16 else s2

/-- One bank brought to the more restrictive of its request and the compute domain's state (R179, R180): at once, or when
the access it has granted is complete. A bank that leaves ON refuses the NOC and DBG requests that wait at it. -/
def State.moveBank (s : State) (t b : Nat) : State :=
  let old := s.bankState t b
  let want := s.bankWanted t b
  let k := bankKey t b
  let bank := s.bank k
  if want = old ∨ (old = 0 ∧ bank.underWay) then s
  else
    let s1 := s.setFld (aSpPwr t) (32 + 2 * b) 2 want
    let kept := if old = 0 then bank.queue.filter fun q => !q.outside else bank.queue
    let s2 := s1.setBank k (
      if want = 0 then (if bank.lost then { bank with zeroing := true } else { bank with waking := true })
      else if want = 2 then { bank with queue := kept, lost := true, waking := false, zeroing := false, owed := [] }
      else { bank with queue := kept, waking := false, zeroing := false, lost := bank.lost || bank.zeroing })
    let s3 := if want = 2 then s2.clearMem (bankBase t b) 0x2_0000 else s2
    if old = 0 then s3.forEach (bank.queue.filterMap BankReq.packet) fun s q => s.bankRefuse t q else s3

/-- Every bank of a tile brought to its effective state. -/
def State.moveBanks (s : State) (t : Nat) : State := s.forEach (List.range 16) fun s b => s.moveBank t b

/-- What a request that its bank has finished answers. -/
def BankReq.done (q : BankReq) : BankDone := { src := q.src, addr := q.addr, write := q.write, ok := !q.bad, data := q.got }

/-- A request that has had its cycle goes back to the head of its bank's queue, or is done; the others have lost a cycle.
A bank that was to leave ON does so when nothing is under way. -/
def State.bankNext (s : State) (t b : Nat) (q : BankReq) (rest : List BankReq) : State × Option BankDone :=
  let k := bankKey t b
  let done := decide (q.len ≤ q.got.length)
  let others := rest.map fun r => { r with lost := r.lost + 1 }
  let s1 := s.setBank k { s.bank k with queue := if done then others else { q with lost := 0 } :: others, second := none }
  (if s1.bankLeaving t b then s1.moveBank t b else s1, if done then some q.done else none)

/-- A bank grants one request (R175, R176), or makes the second cycle of a partial write (R180): the others have lost a
cycle. A bank that is not ON, or on its way there, grants none. -/
def State.bankGrant (s : State) (t b : Nat) : State × Option BankDone :=
  let k := bankKey t b
  let bank := s.bank k
  if s.bankState t b ≠ 0 ∨ bank.waking ∨ bank.zeroing then (s, none)
  else match bank.second with
  | some q =>
    let r := (s.bankLosers t bank.queue).bankPut q
    r.1.bankNext t b r.2 bank.queue
  | none =>
    match s.bankChoice t b with
    | none => (s, none)
    | some (q, aged) =>
      match takeFirst (fun r => r == q) bank.queue with
      | none => (s, none)
      | some (_, rest) =>
        let s1 := if aged then s.count (aSpCnt t) 48 16 else s
        let (s2, q', more) := (s1.bankLosers t rest).bankWord t b q
        if more then
          (s2.setBank k { s2.bank k with queue := rest.map fun r => { r with lost := r.lost + 1 }, second := some q' }, none)
        else s2.bankNext t b q' rest

/-- A corrected word is written back in an idle cycle of its bank, unless it has been written since (R182). -/
def State.writeBack (s : State) (t b : Nat) : State :=
  let k := bankKey t b
  let bank := s.bank k
  match bank.owed with
  | [] => s
  | a :: rest =>
    if bank.queue.isEmpty && bank.second.isNone && s.bankState t b == 0 then
      let s1 := s.setBank k { bank with owed := rest }
      if s1.eccOf a = 1 then s1.setEcc a 0 else s1
    else s

/-- The committed usage table of tile `t`'s region, which is ON, lists bank `b` (R181). -/
def State.bankUsed (s : State) (t b : Nat) : Bool :=
  let m := regionOfTile t
  s.fldOf (aTilePwr t) 0 2 == 0 && (s.rgn m).usage.banks.contains (t, b)

/-- SP_PWR written (R179): by the management complex only. The firmware takes no bank out of ON that the usage table of an
ON region lists: the request of such a bank stays as it is (R181; log 99). Answers whether the write was performed. -/
def State.spPwr (s : State) (o : Origin) (t : Nat) (v : W64) : State × Bool :=
  let w := (List.range 16).foldl (fun w b =>
    if s.bankUsed t b ∧ fld v (2 * b) 2 ≠ 0 then putFld w (2 * b) 2 (s.fldOf (aSpPwr t) (2 * b) 2) else w) v
  if o = .mgmt then ((s.setReg (aSpPwr t) (putFld (s.reg (aSpPwr t)) 0 32 (fld w 0 32))).moveBanks t, true)
  else (s, false)

/-- A bank that leaves RETENTION serves again (R180). -/
def State.bankWake (s : State) (t b : Nat) : State :=
  let bank := s.bank (bankKey t b)
  if bank.waking then s.setBank (bankKey t b) { bank with waking := false } else s

/-- A bank that leaves OFF has written every word with zero and good check bits (R180). -/
def State.bankZero (s : State) (t b : Nat) : State :=
  let bank := s.bank (bankKey t b)
  if bank.zeroing then
    let s1 := (s.setBank (bankKey t b) { bank with zeroing := false, lost := false }).clearMem (bankBase t b) 0x2_0000
    { s1 with ecc := mapDropIf (fun a => decide (bankBase t b ≤ a ∧ a < bankBase t b + 0x2_0000)) s1.ecc }
  else s

/-- A packet-network or debug request reaches a scratchpad (R172, R180): refused where its bank is neither ON nor moving
to ON, else it waits at the bank. -/
def State.bankArrive (s : State) (t : Nat) (q : Req) : State :=
  let b := q.addr / 0x2_0000 % 16
  let bank := s.bank (bankKey t b)
  if s.bankState t b ≠ 0 then s.bankRefuse t q
  else
    s.setBank (bankKey t b) { bank with queue := bank.queue ++
      [{ src := if q.origin = .jtag then .dbg q else .noc q, write := q.op != .rd, addr := q.addr, len := q.len,
         data := q.data, poison := q.poison, lost := 0, got := [], bad := false }] }

end Sys2Proof.Machine
end

