-- ==== Sys2Proof/Machine/Stream.lean ====
section
/-! DEFINITION. Stream arrays (R136 to R170): the operations of the function units, the sequencer threads with their
holds, the macro-node exchange, the stream ports and the stream cache. -/

namespace Sys2Proof.Machine

/- Function-unit operations (R138 to R140). -/

/-- A truth value as a result word. -/
def boolWord (b : Bool) : W32 := if b then 1 else 0

def fpOf (w : W32) : Fp := fp32.read w.toNat
def fpWord (x : Fp) : W32 := BitVec.ofNat 32 (fp32.write x)

/-- A signed integer saturated to 32 bits. -/
def satWord (i : Int) : W32 := BitVec.ofInt 32 (max (-(2 ^ 31)) (min (2 ^ 31 - 1) i))

/-- CRC8 of R140. -/
def crc8Word (a b c : W32) : W32 :=
  (List.range 8).foldl (fun crc _ => if crc.getLsbD 0 then (crc >>> 1) ^^^ b else crc >>> 1) (c ^^^ (a &&& 0xFF#32))

/-- Leading zeros of a word. -/
def clzWord (a : W32) : Nat :=
  match (List.range 32).find? fun i => a.getLsbD (31 - i) with
  | some i => i
  | none => 32

/-- Ones of a word. -/
def popWord (a : W32) : Nat := ((List.range 32).filter fun i => a.getLsbD i).length

/-- An operation on two FP16 lanes. -/
def lanes2 (f : Fp → Fp → Fp → Fp) (a b c : W32) : W32 :=
  let one := fun (lo : Nat) => fp16.write
    (f (fp16.read (a.extractLsb' lo 16).toNat) (fp16.read (b.extractLsb' lo 16).toNat) (fp16.read (c.extractLsb' lo 16).toNat))
  BitVec.ofNat 32 (one 0 + 2 ^ 16 * one 16)

/-- A byte of a word as a number, signed or not. -/
def byteInt (signed : Bool) (w : W32) (i : Nat) : Int :=
  let b := w.extractLsb' (8 * i) 8
  if signed then b.toInt else b.toNat

/-- DOT4 and its variants. -/
def dot4 (sa sb : Bool) (a b c : W32) : W32 :=
  c + BitVec.ofInt 32 ((List.range 4).foldl (fun n i => n + byteInt sa a i * byteInt sb b i) 0)

/-- Result of an operation; none where the output register keeps its value (NOP and reserved values). -/
def fuOp (op : Nat) (a b c : W32) : Option W32 :=
  let sh := (b.extractLsb' 0 5).toNat
  let la := a.extractLsb' 0 16
  let lb := b.extractLsb' 0 16
  match op with
  | 0x01 => some a
  | 0x02 => some (a + b)
  | 0x03 => some (a - b)
  | 0x04 => some (a &&& b)
  | 0x05 => some (a ||| b)
  | 0x06 => some (a ^^^ b)
  | 0x07 => some (a &&& ~~~b)
  | 0x08 => some (a <<< sh)
  | 0x09 => some (a >>> sh)
  | 0x0A => some (a.sshiftRight sh)
  | 0x0B => some (if a.toInt ≤ b.toInt then a else b)
  | 0x0C => some (if a.toInt ≤ b.toInt then b else a)
  | 0x0D => some (satWord (a.toInt.natAbs : Int))
  | 0x0E => some (satWord (a.toInt + b.toInt))
  | 0x0F => some (if c ≠ 0 then a else b)
  | 0x10 => some (boolWord (a == b))
  | 0x11 => some (boolWord (decide (a.toInt < b.toInt)))
  | 0x12 => some (boolWord (decide (a.toNat < b.toNat)))
  | 0x13 => some (BitVec.ofNat 32 (clzWord a))
  | 0x14 => some (BitVec.ofNat 32 (popWord a))
  | 0x15 => some (crc8Word a b c)
  | 0x18 => some (BitVec.ofInt 32 (la.toInt * lb.toInt))
  | 0x19 => some (BitVec.ofNat 32 (la.toNat * lb.toNat))
  | 0x1A => some (BitVec.ofInt 32 (la.toInt * lb.toInt) + c)
  | 0x1B => some (a * b)
  | 0x1C => some (BitVec.ofInt 32 (a.toInt * b.toInt / 2 ^ 32))
  | 0x1D => some (BitVec.ofNat 32 (a.toNat * b.toNat / 2 ^ 32))
  | 0x20 => some (fpWord (fpAdd (fpOf a) (fpOf b)))
  | 0x21 => some (fpWord (fpAdd (fpOf a) (fpOf b).neg))
  | 0x22 => some (fpWord (fpMul (fpOf a) (fpOf b)))
  | 0x23 => some (fpWord (fpAdd (fpMul (fpOf a) (fpOf b)) (fpOf c)))
  | 0x24 => some (fpWord (fpAdd (fpOf c) (fpMul (fpOf a) (fpOf b)).neg))
  | 0x25 => some (fpWord (fpMinMax false (fpOf a) (fpOf b)))
  | 0x26 => some (fpWord (fpMinMax true (fpOf a) (fpOf b)))
  | 0x27 => some (boolWord (fpLt false (fpOf a) (fpOf b)))
  | 0x28 => some (boolWord (fpEq (fpOf a) (fpOf b)))
  | 0x29 => some (fpWord (fpRcp (fpOf a)))
  | 0x2A => some (fpWord (fpOfInt a.toInt 0 false))
  | 0x2B => some (BitVec.ofInt 32 (fpToInt (fpOf a)))
  | 0x2C => some (a &&& 0x7FFFFFFF#32)
  | 0x2D => some (a ^^^ 0x80000000#32)
  | 0x30 => some (lanes2 (fun x y _ => fpAdd x y) a b c)
  | 0x31 => some (lanes2 (fun x y _ => fpMul x y) a b c)
  | 0x32 => some (lanes2 (fun x y z => fpAdd (fpMul x y) z) a b c)
  | 0x33 => some (fpWord (fp16.read la.toNat))
  | 0x34 => some (BitVec.ofNat 32 (fp16.write (fpOf a)))
  | 0x38 => some (dot4 true true a b c)
  | 0x39 => some (dot4 false false a b c)
  | 0x3A => some (dot4 true false a b c)
  | _ => none

/-- The operations that set P. -/
def setsPred (op : Nat) : Bool := op == 0x10 || op == 0x11 || op == 0x12 || op == 0x27 || op == 0x28

/- Addresses (R147). -/

def arrBase (t : Nat) : Nat := 0x13_0000_0000 + 0x4_0000 * t
def aContext (t n : Nat) : Nat := arrBase t + 0x800 * n
def aSeqEntry (t e : Nat) : Nat := arrBase t + 0x1_8000 + 8 * e
def aJump (t j i : Nat) : Nat := arrBase t + 0x1_8800 + 16 * j + i
def aItabLen (t j : Nat) : Nat := arrBase t + 0x1_8880 + j
def aDescr (t d : Nat) : Nat := arrBase t + 0x1_9000 + 32 * d
def aRf (t u i : Nat) : Nat := arrBase t + 0x1_A000 + 16 * u + 4 * i

/- Status of an array (R165). -/

def State.arrOn (s : State) (t : Nat) : Bool := s.bitOf (aArrCfg t) 0
def State.arrSplit (s : State) (t : Nat) : Bool := s.bitOf (aArrCfg t) 1
def State.tBusy (s : State) (t : Nat) : Bool := s.bitOf (aArrStatus t) 16
def State.arrStopped (s : State) (t : Nat) : Bool := s.bitOf (aArrStatus t) 21

/-- Entry a thread stands at: H_PC, T_PC. -/
def State.seqPc (s : State) (t th : Nat) : Nat := s.fldOf (aArrStatus t) (8 * th) 8

/-- A thread of an array: 0 the H or single thread, 1 the T thread. -/
def Arr.thread (a : Arr) (th : Nat) : Thread := if th = 0 then a.h else a.t
def Arr.setThread (a : Arr) (th : Nat) (x : Thread) : Arr := if th = 0 then { a with h := x } else { a with t := x }
def Arr.port (a : Arr) (n : Nat) : Port := mapGet (fun _ => {}) a.ports n
def Arr.setPort (a : Arr) (n : Nat) (p : Port) : Arr := { a with ports := mapSet (fun _ => {}) a.ports n p }

/-- HELD and HOLD_SRC of an array that holds for cause `n`. -/
def State.arrHeld (s : State) (t n : Nat) : State :=
  s.setReg (aArrStatus t) (putFld (putFld (s.reg (aArrStatus t)) 17 1 1) 18 3 n)

/-- A whole array holds in this cycle for cause `n`. -/
def State.arrHoldAll (s : State) (t n : Nat) : State :=
  ((s.arrHeld t n).setArr t { s.arr t with heldBy := none }).count (aArrCnt t) 0 32

/-- Thread `th` of an array holds in this cycle for cause `n`. HOLD_CYCLES counts the cycles in which the array holds: of
split mode's two threads, which take their steps of a cycle one after the other, one counts it (R165; log 97). -/
def State.arrHold (s : State) (t th n : Nat) : State :=
  let a := s.arr t
  let counted := a.heldBy == some (1 - th)
  let s1 := (s.arrHeld t n).setArr t
    ({ a with heldBy := if counted then none else some th }.setThread th { a.thread th with held := true })
  if counted then s1 else s1.count (aArrCnt t) 0 32

/-- DETAIL of a STREAM_FAULT record (R168). -/
def State.streamDetail (s : State) (t th cause fu : Nat) : W64 :=
  BitVec.ofNat 64 (cause + 2 ^ 4 * s.seqPc t th + 2 ^ 12 * th + 2 ^ 13 * ((s.arr t).thread th).ctx + 2 ^ 19 * fu)

/-- STREAM_FAULT raised (R129, R168); causes 1 to 3 count as internal. -/
def State.streamFault (s : State) (t th cause fu : Nat) : State :=
  s.raise 5 (regionOfTile t) t 0xFFFF (s.streamDetail t th cause fu) (decide (cause ≤ 3))

/-- The array stops: STOPPED set and STREAM_FAULT raised (R151, R167). -/
def State.arrStop (s : State) (t th cause fu : Nat) : State :=
  (s.setBit (aArrStatus t) 21 true).streamFault t th cause fu

/-- A single-bit error corrected inline (R165, R167). -/
def State.arrCe (s : State) (t mem : Nat) : State :=
  (s.count (aArrErr t) 0 16).setFld (aArrErr t) 16 3 mem

/-- Counts the corrected error of a word that is read. -/
def State.arrRead (s : State) (t mem a n : Nat) : State := if s.eccMax a n = 1 then s.arrCe t mem else s

/-- FRAME_LO (R152). -/
def State.frameLo (s : State) (t : Nat) : Nat := if s.tBusy t then (s.arr t).t.frame else (s.arr t).h.frame

/-- FRAME_LO brought up to date, with the record of macro-node words of completed frames forgotten. -/
def State.updateFrame (s : State) (t : Nat) : State :=
  let f := s.frameLo t
  let a := s.arr t
  (s.setFld (aArrFrame t) 0 48 f).setArr t { a with wrote := a.wrote.filter fun x => decide (f ≤ x.1) }

/-- The array at START or at a region resume (R142, R170). -/
def State.arrReset (s : State) (t : Nat) : State :=
  let s1 := s.setReg (aArrStatus t) (BitVec.ofNat 64 (s.fldOf (aArrCfg t) 2 8))
  let s2 := s1.forEach (List.range 8) fun s n => s.setBit (aPortCfg t n) 32 false
  (s2.setArr t { cache := (s.arr t).cache }).setReg (aArrFrame t) 0

/- Function units (R141 to R146, R163). -/

/-- Column of an FU. -/
def fuCol (u : Nat) : Nat := u % 12

/-- The FUs a thread runs: all, or the half of split mode. -/
def State.fusOf (s : State) (t th : Nat) : List Nat :=
  if s.arrSplit t then (List.range 96).filter fun u => decide (fuCol u < 6) == (th == 0) else List.range 96

/-- A field of the 16-byte entry of FU `u` in a loaded context. -/
def Thread.fu (x : Thread) (u lo w : Nat) : Nat := leNum x.cfg (16 * u) 16 / 2 ^ lo % 2 ^ w

/-- A word of the context header at byte offset `o`. -/
def Thread.hdr (x : Thread) (o n : Nat) : Nat := leNum x.cfg o n

/-- The thread whose context sets up an FU. -/
def State.ownerThread (s : State) (t u : Nat) : Nat := if s.arrSplit t && decide (6 ≤ fuCol u) then 1 else 0

/-- Output register of an FU; an index beyond 95 names none, and the spec states no value (log 7). -/
def State.outReg (s : State) (t u : Nat) : W32 :=
  if u < 96 then mapGet (fun _ => 0) (s.arr t).outs u else (Config.freeWord s.free u).setWidth 32

/-- The neighbour of an FU on side 0 N, 1 E, 2 S, 3 W; none at the edge, and none across the halves of split mode. -/
def State.fuNext (s : State) (t u side : Nat) : Option Nat :=
  let r := u / 12
  let c := u % 12
  match side with
  | 0 => if r < 7 then some (u + 12) else none
  | 1 => if c < 11 ∧ !(s.arrSplit t && c == 5) then some (u + 1) else none
  | 2 => if 0 < r then some (u - 12) else none
  | _ => if 0 < c ∧ !(s.arrSplit t && c == 6) then some (u - 1) else none

/-- Value arriving on a mesh input: what the neighbour's opposite output drives (R143). -/
def State.meshIn (s : State) (t u side : Nat) : W32 :=
  match s.fuNext t u side with
  | none => 0
  | some v =>
    let x := (s.arr t).thread (s.ownerThread t v)
    match x.fu v (64 + 3 * ((side + 2) % 4)) 3 with
    | 1 => s.outReg t v
    | 2 => mapGet (fun _ => 0) (s.arr t).mesh (4 * v)
    | 3 => mapGet (fun _ => 0) (s.arr t).mesh (4 * v + 1)
    | 4 => mapGet (fun _ => 0) (s.arr t).mesh (4 * v + 2)
    | 5 => mapGet (fun _ => 0) (s.arr t).mesh (4 * v + 3)
    | _ => 0

/-- Row bus (`col` false) or column bus that an FU reads under its thread's context (R144, R163). -/
def State.busWord (s : State) (t th u : Nat) (col : Bool) : W32 :=
  let x := (s.arr t).thread th
  let d := if col then x.hdr (0x610 + u % 12) 1 else x.hdr (0x608 + u / 12) 1
  if d < 128 then 0
  else if col then s.outReg t (12 * (d % 8) + u % 12)
  else
    let c := d % 16
    if s.arrSplit t && (decide (c < 6) != (th == 0)) then 0
    else s.outReg t (if c < 12 then 12 * (u / 12) + c else 96 + c)

/-- The ports a thread uses (R163). -/
def State.ownPort (s : State) (t th n : Nat) : Bool := !s.arrSplit t || (decide (n < 4) == (th == 0))

/-- The port is enabled in a direction: 0 read, 1 write. -/
def State.portIs (s : State) (t n dir : Nat) : Bool :=
  s.bitOf (aPortCfg t n) 0 && s.fldOf (aPortCfg t n) 1 1 == dir

/-- Head of a read port; an ended port delivers ZERO (R160). A port that is no enabled read port of the thread has no
head, and the spec states no value (log 7). -/
def State.portHead (s : State) (t th n : Nat) : W32 :=
  if s.ownPort t th n && s.portIs t n 0 then
    match ((s.arr t).port n).fifo with
    | w :: _ => w.val.getD 0
    | [] => 0
  else (Config.freeWord s.free (128 + n)).setWidth 32

/-- A source value (R141). -/
def State.fuSource (s : State) (t th u code : Nat) : W32 :=
  let x := (s.arr t).thread th
  if 1 ≤ code ∧ code ≤ 4 then BitVec.ofNat 32 (s.num (aRf t u (code - 1)) 4)
  else if code = 5 then s.outReg t u
  else if 6 ≤ code ∧ code ≤ 9 then s.meshIn t u (code - 6)
  else if code = 10 then s.busWord t th u false
  else if code = 11 then s.busWord t th u true
  else if code = 12 then BitVec.ofNat 32 (x.fu u 32 32)
  else if 13 ≤ code ∧ code ≤ 20 then s.portHead t th (code - 13)
  else if 21 ≤ code ∧ code ≤ 28 then x.mni.getD (code - 21) 0
  else if code = 29 then
    (if s.arrSplit t && th == 1 then mapGet (fun _ => 0) (s.arr t).handoff (u / 12) else 0)
  else if code = 30 then BitVec.ofNat 32 x.frame
  else 0

/-- One FU in one run step: its result, and whether P follows it. -/
def State.fuStep (s : State) (t th u : Nat) : Option (W32 × Bool) :=
  let x := (s.arr t).thread th
  let op := x.fu u 0 6
  (fuOp op (s.fuSource t th u (x.fu u 6 5)) (s.fuSource t th u (x.fu u 11 5)) (s.fuSource t th u (x.fu u 16 5))).map
    fun r => (r, setsPred op)

/-- The switch boxes of a thread's FUs take the values arriving on their mesh inputs, which they hold for one step: run
step or switch step (R143). -/
def State.meshStep (s : State) (t th : Nat) : State :=
  let a := s.arr t
  s.setArr t { a with mesh := (s.fusOf t th).foldl (fun m u =>
    (List.range 4).foldl (fun m i => mapSet (fun _ => 0) m (4 * u + i) (s.meshIn t u i)) m) a.mesh }

/-- Every FU of a thread executes once (R137, R142, R143): results, predicates, register files, held mesh inputs. With
RFW_EN = 1 an FU whose operation is NOP or reserved, and so has no result, writes its unchanged output register
(DESIGN CHOICE, log 97). -/
def State.fuAll (s : State) (t th : Nat) : State :=
  let x := (s.arr t).thread th
  (s.meshStep t th).forEach (s.fusOf t th) fun z u =>
    let a := z.arr t
    match s.fuStep t th u with
    | none =>
      if x.fu u 23 1 = 1 then z.store (aRf t u (x.fu u 21 2)) (bytesOfNat 4 (s.outReg t u).toNat) else z
    | some (r, p) =>
      let preds := if p then mapSet (fun _ => false) a.preds u (r.getLsbD 0) else a.preds
      let z1 := z.setArr t { a with preds, outs := mapSet (fun _ => 0) a.outs u r }
      if x.fu u 23 1 = 1 then z1.store (aRf t u (x.fu u 21 2)) (bytesOfNat 4 r.toNat) else z1

/- Ports (R158 to R162). -/

/-- A stream descriptor, read (R159). -/
structure Descr where
  addr : Nat
  stride : Int
  count : Nat
  rep : Nat
  next : Nat
  link : Bool
  noCache : Bool
  elem : Nat
  deriving DecidableEq, Repr

def descrOf (bs : List Byte) : Descr :=
  let f := leNum bs 19 1
  { addr := leNum bs 0 8 % 2 ^ 48, stride := (BitVec.ofNat 32 (leNum bs 8 4)).toInt, count := leNum bs 12 4, rep := leNum bs 16 2,
    next := leNum bs 18 1 % 32, link := f % 2 == 1, noCache := f / 2 % 2 == 1, elem := f / 4 % 8 }

/-- Size of an element in bytes. -/
def elemSize (e : Nat) : Nat := if e = 0 then 4 else if e ≤ 2 then 2 else 1

/-- An element as a 32-bit word (R159). -/
def elemWord (e : Nat) (bs : List Byte) : W32 :=
  let n := natOfBytes bs
  match e with
  | 1 => (BitVec.ofNat 16 n).signExtend 32
  | 3 => (BitVec.ofNat 8 n).signExtend 32
  | _ => BitVec.ofNat 32 n

/-- Address of element `i` of a pass. -/
def Descr.at (d : Descr) (i : Nat) : Nat := ((d.addr + d.stride * i) % 2 ^ 48).toNat

/-- Descriptor a port stands at. -/
def State.portDescr (s : State) (t n : Nat) : Nat :=
  (((s.arr t).port n).desc).getD (s.fldOf (aPortCfg t n) 2 5)

/-- The port moved past one delivery of an element (R159, R160). -/
def Port.advance (p : Port) (cur : Nat) (d : Descr) : Port :=
  if p.rep < d.rep then { p with desc := some cur, rep := p.rep + 1 }
  else if p.idx + 1 < d.count then { p with desc := some cur, idx := p.idx + 1, rep := 0 }
  else if d.link then { p with desc := some d.next, idx := 0, rep := 0 }
  else { p with desc := some cur, done := true }

/-- ENDED set once a read port's last element has been delivered, or a write port's chain has ended (R160). -/
def State.setEnded (s : State) (t n : Nat) : State :=
  let p := (s.arr t).port n
  if p.done && (s.portIs t n 1 || p.fifo.isEmpty) then s.setBit (aPortCfg t n) 32 true else s

/-- The context entry of port `n` acts in run step `r` (R146, R160). -/
def State.portActs (s : State) (t th n r : Nat) : Bool :=
  let e := ((s.arr t).thread th).hdr (0x620 + 8 * n) 8
  s.ownPort t th n && e / 128 % 2 == 1 && (e / 256 % 256 == 0 || e / 256 % 256 == r)

/-- The read port has no element to deliver, and has not ended. -/
def State.portEmpty (s : State) (t n : Nat) : Bool :=
  let p := (s.arr t).port n
  match p.fifo with
  | w :: _ => w.val.isNone
  | [] => !p.done

/-- An FU of the thread reads the head of port `n`. Every source field that names SPn counts, one that the operation does
not use among them (DEDUCED, log 97). -/
def State.readsPort (s : State) (t th n : Nat) : Bool :=
  let x := (s.arr t).thread th
  (s.fusOf t th).any fun u => x.fu u 6 5 == 13 + n || x.fu u 11 5 == 13 + n || x.fu u 16 5 == 13 + n

/-- Hold of a run step on its ports (R160): 2 for an empty read port that an FU reads or the context pops, 3 for a push
that meets a full write port. -/
def State.portHold (s : State) (t th r : Nat) : Option Nat :=
  let ports := (List.range 8).filter (s.ownPort t th)
  if ports.any fun n => s.portIs t n 0 && s.portEmpty t n && (s.readsPort t th n || s.portActs t th n r) then some 2
  else if ports.any fun n => s.portIs t n 1 && s.portActs t th n r && !((s.arr t).port n).done &&
      decide (64 ≤ ((s.arr t).port n).fifo.length) then some 3
  else none

/-- Pops and pushes at the end of run step `r`. -/
def State.portActions (s : State) (t th r : Nat) : State :=
  s.forEach (List.range 8) fun s n =>
    if s.portActs t th n r then
      let a := s.arr t
      let p := a.port n
      if s.portIs t n 0 then (s.setArr t (a.setPort n { p with fifo := p.fifo.drop 1 })).setEnded t n
      else if s.portIs t n 1 && !p.done then
        let cur := s.portDescr t n
        let d := descrOf (s.bytes (aDescr t cur) 32)
        let w : PortWord := { addr := d.at p.idx, elem := d.elem, ecc := 0,
                              val := some (s.outReg t ((a.thread th).hdr (0x620 + 8 * n) 1 % 128)) }
        (s.setArr t (a.setPort n ({ p with fifo := p.fifo ++ [w] }.advance cur d))).setEnded t n
      else s
    else s

/-- What an answer of `len` bytes serves: a line fill, or an element's own access. -/
def askedBy (len : Nat) : Nat := if len = 64 then 2 else 1

/-- The element waits for the `len` bytes at `a`. -/
def PortWord.waits (w : PortWord) (a len : Nat) : Bool :=
  w.asked == askedBy len && decide (a ≤ w.addr ∧ w.addr < a + len)

/-- The first element that waits for the `len` bytes at `a` has its answer: its value from them, or none at all after an
error, when it is never delivered (R223). -/
def fillWord (a len : Nat) (data : Option (List Byte)) : List PortWord → List PortWord
  | [] => []
  | w :: rest =>
    if w.waits a len then
      { w with asked := 0, val := data.map fun d => elemWord w.elem (sub d (w.addr - a) (elemSize w.elem)) } :: rest
    else w :: fillWord a len data rest

/-- Address of the first element that waits for the `len` bytes at `a`. -/
def unfilledAt (a len : Nat) (l : List PortWord) : Nat :=
  match l.find? fun w => w.waits a len with
  | some w => w.addr
  | none => a

/-- A DRAM access that a stream port of region `m` issues while the region's refresh window is open counts in VIOL
(R122). -/
def State.portViol (s : State) (m a : Nat) : State :=
  if (s.rgn m).grant && decide (a < 0x10_0000_0000) then s.count (aRgnRefwin m) 32 16 else s

/-- The next fetch of a read port (R160, R162): from the cache, the tile's scratchpad, or the packet network; a line
that is already on its way is waited for. -/
def State.portFetch (s : State) (t n : Nat) : State :=
  let m := regionOfTile t
  let a := s.arr t
  let p := a.port n
  let cur := s.portDescr t n
  let da := aDescr t cur
  if s.fenced m || !s.arrOn t || !s.portIs t n 0 || p.done || s.arrStopped t || decide (64 ≤ p.fifo.length) then s
  else if s.eccMax da 32 = 2 then s.arrStop t (b2n (s.arrSplit t && decide (4 ≤ n))) 3 0x7F
  else
    let s := s.arrRead t 2 da 32
    let d := descrOf (s.bytes da 32)
    let ad := d.at p.idx
    let size := elemSize d.elem
    let asking := fun (k : Nat) =>
      let w : PortWord := { addr := ad, elem := d.elem, val := none, ecc := 0, asked := k }
      { p with fifo := p.fifo ++ [w] }.advance cur d
    let p' := asking 1
    if 0x10_0000_0000 ≤ ad ∧ ad < 0x10_0800_0000 ∧ (bankOf ad).1 = t then
      let bk := bankKey t (bankOf ad).2
      let bank := s.bank bk
      let q : BankReq := { src := .sa n, write := false, addr := ad, len := size, data := [], poison := false, lost := 0,
                           got := [], bad := false }
      (s.setArr t (a.setPort n p')).setBank bk { bank with queue := bank.queue ++ [q] }
    else if d.noCache ∨ 0x10_0000_0000 ≤ ad then
      let r := s.sendReq t 4 (.region m) false ad size [] s.pos (.stream t n)
      if r.2 then (r.1.portViol m ad).setArr t (a.setPort n p') else s
    else
      let line := ad / 64
      match a.cache.find? fun c => c.line == line && c.ecc != 2 with
      | some c =>
        let s1 := if c.ecc = 1 then s.arrCe t 5 else s
        let q := asking 2
        (s1.count (aArrCache t) 0 32).setArr t (a.setPort n { q with fifo := fillWord (64 * line) 64 (some c.data) q.fifo })
      | none =>
        if a.fills.contains line then s
        else
          let r := s.sendReq t 4 (.region m) false (64 * line) 64 [] s.pos (.stream t n)
          let a' := { a.setPort n (asking 2) with fills := a.fills ++ [line], cache := a.cache.filter fun c => c.line != line }
          if r.2 then ((r.1.portViol m ad).count (aArrCache t) 32 32).setArr t a' else s

/-- Lines a stream cache holds. -/
def cacheLines : Nat := 1024

/-- The outcome of an element's access reaches its port (R160, R162, R167, R223). After an error the element is not delivered;
a store that failed has been answered, and the port goes on with the next (log 98). -/
def State.streamOutcome (s : State) (t n addr len : Nat) (write ok : Bool) (data : List Byte) : State :=
  let a := s.arr t
  let p := a.port n
  let line := addr / 64
  let lineFill := !write && len == 64
  let fills := if lineFill then a.fills.filter fun l => l != line else a.fills
  let stale := if lineFill then a.stale.filter fun l => l != line else a.stale
  let stored := { p with fifo := p.fifo.drop 1, storing := false }
  if !ok then
    let s1 := s.setArr t { a.setPort n (if write then stored else { p with fifo := fillWord addr len none p.fifo }) with
                           fills, stale }
    s1.raise 6 (regionOfTile t) t 0xFFFF (BitVec.ofNat 64 (if write then addr else unfilledAt addr len p.fifo)) true
  else if write then s.setArr t (a.setPort n stored)
  else
    let keep := if lineFill && a.fills.contains line && !a.stale.contains line then
        (if cacheLines ≤ a.cache.length then a.cache.drop 1 else a.cache) ++ [{ line, data, ecc := 0 }]
      else a.cache
    s.setArr t { a.setPort n { p with fifo := fillWord addr len (some data) p.fifo } with fills, stale, cache := keep }

/-- The next store of a write port, in order (R160). -/
def State.portStore (s : State) (t n : Nat) : State :=
  let m := regionOfTile t
  let a := s.arr t
  let p := a.port n
  match p.fifo with
  | [] => s
  | w :: rest =>
    if !s.portIs t n 1 || p.storing then s
    else if w.ecc = 2 then s.arrStop t (b2n (s.arrSplit t && decide (4 ≤ n))) 3 0x7F
    else
      let s := if w.ecc = 1 then s.arrCe t 4 else s
      let size := elemSize w.elem
      let data := bytesOfNat size (w.val.getD 0).toNat
      let a' := a.setPort n { p with fifo := { w with ecc := 0 } :: rest, storing := true }
      if 0x10_0000_0000 ≤ w.addr ∧ w.addr < 0x10_0800_0000 ∧ (bankOf w.addr).1 = t then
        let bk := bankKey t (bankOf w.addr).2
        let bank := s.bank bk
        let q : BankReq := { src := .sa n, write := true, addr := w.addr, len := size, data, poison := false, lost := 0,
                             got := [], bad := false }
        (s.setArr t a').setBank bk { bank with queue := bank.queue ++ [q] }
      else
        let r := s.sendReq t 4 (.region m) true w.addr size data s.pos (.stream t n)
        if r.2 then (r.1.portViol m w.addr).setArr t a' else s

/-- INV reaches a stream cache (R162, R232): the line is dropped, and one on its way is not kept. -/
def State.cacheDrop (s : State) (t line : Nat) : State :=
  let a := s.arr t
  let stale := if a.fills.contains line && !a.stale.contains line then a.stale ++ [line] else a.stale
  s.setArr t { a with cache := a.cache.filter fun c => c.line != line, stale }

/- The sequencer (R149 to R156, R164). -/

/-- A sequencer entry, read (R149). -/
structure SeqEntry where
  ctx : Nat
  run : Nat
  kind : Nat
  pol : Bool
  pfu : Nat
  target : Nat
  itab : Nat
  deriving DecidableEq, Repr

def State.seqEntry (s : State) (t e : Nat) : SeqEntry :=
  let w := s.word (aSeqEntry t e)
  { ctx := fld w 0 6, run := fld w 8 8, kind := fld w 16 3, pol := bit w 19, pfu := fld w 20 7, target := fld w 27 8,
    itab := fld w 35 3 }

/-- SPLIT that a context must name for a thread (R146, R151). -/
def State.wantSplit (s : State) (t th : Nat) : Nat := if s.arrSplit t then th + 1 else 0

/-- The entry is invalid for the thread that has reached it (R151). -/
def State.seqInvalid (s : State) (t th : Nat) (e : SeqEntry) : Bool :=
  decide (6 ≤ e.kind) || decide (47 < e.ctx) || s.num (aContext t e.ctx + 0x600) 1 % 4 != s.wantSplit t th ||
  (e.kind == 5 && !(s.arrSplit t && th == 0))

/-- region_hold for a stream array (R76, R136, R439). -/
def State.arrRegionHold (s : State) (t th : Nat) : Bool :=
  let m := regionOfTile t
  let r := s.rgn m
  !r.released || s.fenced m || s.halted m || decide (s.rgnState m = 5) ||
  (r.stepping && s.bitOf (aDbgHalt m) 3 && ((s.arr t).thread th).stepsLeft == 0)

/-- A thread may begin frame `c` (R153, R436). -/
def State.frameMayBegin (s : State) (m c : Nat) : Option Nat :=
  let d := s.sched m
  if c > 0 ∧ !((s.members m).all fun tc => s.reached tc.1 tc.2 (c - 1) 1 &&
      (d.win == 0 || s.passed tc.1 tc.2 (c - 1) (d.win - 1))) then some 4
  else if (match (s.rgn m).haltAt with
      | some b => decide (b ≤ c)
      | none => false) || s.atMatch m c then some 6
  else none

/-- What a performed array step shows to the debug port and the trace (R444, R449). -/
structure ArrStep where
  t : Nat
  thread : Nat
  entry : Nat
  ctx : Nat
  /-- A switch step, or a run step. -/
  switch : Bool
  /-- Outcome of a BR; target entry of an IND. -/
  branch : Option Bool
  ind : Option Nat
  deriving DecidableEq, Repr

/-- A thread goes on to another entry. -/
def State.seqGoto (s : State) (t th e : Nat) : State := s.setFld (aArrStatus t) (8 * th) 8 e

/-- The step counted, when a thread has performed one; HELD stays only while the other thread of split mode holds. -/
def State.arrStepped (s : State) (t th : Nat) : State :=
  let a := s.arr t
  let x := a.thread th
  (s.setBit (aArrStatus t) 17 (s.arrSplit t && s.tBusy t && (a.thread (1 - th)).held)).setArr t
    ({ a with heldBy := none }.setThread th { x with stepsLeft := x.stepsLeft - 1, held := false })

/-- The reason a thread cannot take a step now that no entry decides: 6 region hold, 7 stopped. -/
def State.threadHold (s : State) (t th : Nat) : Option Nat :=
  if s.arrRegionHold t th then some 6 else if s.arrStopped t then some 7 else none

/-- A thread exists and runs: the array is enabled; the T thread only in split mode, and while it holds a frame. -/
def State.threadRuns (s : State) (t th : Nat) : Bool :=
  s.arrOn t && (th == 0 || (s.arrSplit t && s.tBusy t))

/-- A switch step (R150, R151, R153, R164). A context error's record names no FU, wherever in the context it lies
(DESIGN CHOICE, log 97). -/
def State.switchStep (s : State) (t th : Nat) : State × Option ArrStep :=
  let m := regionOfTile t
  let x := (s.arr t).thread th
  let pc := s.seqPc t th
  if !s.threadRuns t th || x.run ≠ 0 then (s, none)
  else match s.threadHold t th with
  | some n => (s.arrHold t th n, none)
  | none =>
    match if x.begun then none else s.frameMayBegin m x.frame with
    | some n => (s.arrHold t th n, none)
    | none =>
      let e := s.seqEntry t pc
      if s.eccMax (aSeqEntry t pc) 8 = 2 then (s.arrStop t th 2 0x7F, none)
      else if s.seqInvalid t th e then (s.arrStop t th 4 0x7F, none)
      else if s.eccMax (aContext t e.ctx) 2048 = 2 then (s.arrStop t th 1 0x7F, none)
      else
        let s0 := (s.arrRead t 1 (aSeqEntry t pc) 8).arrRead t 0 (aContext t e.ctx) 2048
        if e.kind = 5 ∧ s.tBusy t then (s0.arrHold t th 5, none)
        else
          let s0 := s0.meshStep t th
          let a := s0.arr t
          let loaded := { x with ctx := e.ctx, cfg := s.bytes (aContext t e.ctx) 2048, begun := true }
          let shown : ArrStep := { t, thread := th, entry := pc, ctx := e.ctx, switch := true, branch := none, ind := none }
          if e.kind = 5 then
            let words := (List.range 8).foldl (fun w r => mapSet (fun _ => 0) w r (s.outReg t (12 * r + 5))) a.handoff
            let tail : Thread := { a.t with run := 0, frame := x.frame, begun := true }
            let a1 := { a with handoff := words, t := tail, h := { loaded with run := 0, frame := x.frame + 1, begun := false } }
            let s1 := ((s0.setArr t a1).seqGoto t 1 e.target).setBit (aArrStatus t) 16 true
            (((s1.seqGoto t 0 (s.fldOf (aArrCfg t) 2 8)).updateFrame t).arrStepped t 0, some shown)
          else ((s0.setArr t (a.setThread th { loaded with run := 1 })).arrStepped t th, some shown)

/-- One MNI slot of a loaded context: enabled, cluster, word, high half (R146, R155). -/
def Thread.mniSlot (x : Thread) (i : Nat) : Bool × Nat × Nat × Bool :=
  let v := x.hdr (0x660 + 8 * i) 1
  (v % 2 == 1, v / 2 % 16, 120 + v / 32 % 4, v / 128 % 2 == 1)

/-- Every enabled MNI slot is valid for the thread's frame (R155). -/
def State.mniReady (s : State) (t th : Nat) : Bool :=
  let x := (s.arr t).thread th
  (List.range 8).all fun i =>
    let (en, c, w, _) := x.mniSlot i
    !en || s.dsReady t (s.phys t c) w x.frame

/-- The values of the MNI slots; of a slot that is not enabled the spec states none (log 7). -/
def State.mniLatch (s : State) (t th : Nat) : List W32 :=
  let x := (s.arr t).thread th
  (List.range 8).map fun i =>
    let (en, c, w, high) := x.mniSlot i
    if en then (s.word (aDs t (s.phys t c) (x.frame % 2) w)).extractLsb' (if high then 32 else 0) 32
    else (Config.freeWord s.free (144 + i)).setWidth 32

/-- One MNO slot at the end of run step `r` of an entry with `len` run steps (R156). -/
def State.mnoWrite (s : State) (t th r len i : Nat) : State :=
  let x := (s.arr t).thread th
  let v := x.hdr (0x6A0 + 8 * i) 8
  let ws := v / 2 ^ 22 % 256
  if v % 2 = 1 ∧ r = (if ws = 0 ∨ len < ws then len else ws) then
    let c := v / 2 % 16
    let w := 124 + v / 32 % 4
    let a := s.arr t
    let key := (x.frame, 128 * c + w)
    if a.wrote.contains key then s.count (aArrCnt t) 48 16
    else
      let lo := (s.outReg t (v / 2 ^ 8 % 128)).toNat
      let hi := if v / 128 % 2 = 1 then (s.outReg t (v / 2 ^ 15 % 128)).toNat else 0
      (s.setArr t { a with wrote := a.wrote ++ [key] }).dsWrite t (s.phys t c) (x.frame % 2) w (BitVec.allOnes 64)
        (BitVec.ofNat 64 (lo + 2 ^ 32 * hi)) true (dsGen x.frame)
  else s

/-- P of an FU; an index beyond 95 names none (log 7). -/
def State.predOf (s : State) (t u : Nat) : Bool :=
  if u < 96 then mapGet (fun _ => false) (s.arr t).preds u else (Config.freeWord s.free (256 + u)).getLsbD 0

/-- The end of a thread's frame (R152, R164): the T thread becomes idle, the other goes on with the next frame. -/
def State.frameEnd (s : State) (t th : Nat) : State :=
  let a := s.arr t
  let x := a.thread th
  if th = 1 then ((s.setArr t (a.setThread 1 { x with run := 0, begun := false })).setBit (aArrStatus t) 16 false).updateFrame t
  else ((s.setArr t (a.setThread 0 { x with run := 0, frame := x.frame + 1, begun := false })).seqGoto t 0
    (s.fldOf (aArrCfg t) 2 8)).updateFrame t

/-- The choice of the next entry at the end of an entry's last run step (R150, R151). -/
def State.seqNext (s : State) (t th : Nat) : State × Option Bool × Option Nat :=
  let a := s.arr t
  let pc := s.seqPc t th
  let e := s.seqEntry t pc
  let up := (pc + 1) % 256
  let s1 := s.setArr t (a.setThread th { a.thread th with run := 0 })
  match e.kind with
  | 1 =>
    let taken := s.predOf t e.pfu == !e.pol
    (s1.seqGoto t th (if taken then e.target else up), some taken, none)
  | 2 => (s1.seqGoto t th e.target, none, none)
  | 3 =>
    let i := (s.outReg t e.pfu).toNat % 16
    let len := s.num (aItabLen t e.itab) 1 % 32
    if s.eccMax (aJump t e.itab i) 1 = 2 ∨ s.eccMax (aItabLen t e.itab) 1 = 2 then (s.arrStop t th 2 0x7F, none, none)
    else if len ≤ i then ((s1.seqGoto t th up).count (aArrCnt t) 32 16, none, some up)
    else
      let n := s.num (aJump t e.itab i) 1
      ((s1.arrRead t 1 (aJump t e.itab i) 1).seqGoto t th n, none, some n)
  | 4 => (s.frameEnd t th, none, none)
  | _ => (s1.seqGoto t th up, none, none)

/-- Register-file entries that an FU's sources name, each once. -/
def State.rfRead (s : State) (t th u : Nat) : List Nat :=
  let x := (s.arr t).thread th
  (([6, 11, 16].map fun lo => x.fu u lo 5).filter fun c => decide (1 ≤ c ∧ c ≤ 4)).eraseDups.map (· - 1)

/-- An FU of a thread that reads a register-file entry with an uncorrectable error. -/
def State.rfBad (s : State) (t th : Nat) : Option Nat :=
  (s.fusOf t th).find? fun u => (s.rfRead t th u).any fun i => s.eccMax (aRf t u i) 4 == 2

/-- Error state of the head of a read port that an FU reads. -/
def State.headEcc (s : State) (t th n : Nat) : Nat :=
  if s.readsPort t th n && s.portIs t n 0 then
    match ((s.arr t).port n).fifo with
    | w :: _ => w.ecc
    | [] => 0
  else 0

/-- The head of a read port that an FU reads carries an uncorrectable error. -/
def State.headBad (s : State) (t th : Nat) : Bool := (List.range 8).any fun n => s.headEcc t th n == 2

/-- The write ports that take a push in run step `r`. -/
def State.pushes (s : State) (t th r : Nat) : List Nat :=
  (List.range 8).filter fun n => s.portActs t th n r && s.portIs t n 1 && !((s.arr t).port n).done

/-- The descriptor of a write port that takes a push carries an uncorrectable error. -/
def State.descrBad (s : State) (t th r : Nat) : Bool :=
  (s.pushes t th r).any fun n => s.eccMax (aDescr t (s.portDescr t n)) 32 == 2

/-- What a run step reads with a single-bit error is corrected and counted: register files, heads of read ports,
descriptors of pushes (R165, R167). -/
def State.runRead (s : State) (t th r : Nat) : State :=
  let s1 := s.forEach (s.fusOf t th) fun z u => z.forEach (s.rfRead t th u) fun z i => z.arrRead t 3 (aRf t u i) 4
  let s2 := s1.forEach ((List.range 8).filter fun n => s.headEcc t th n == 1) fun z _ => z.arrCe t 4
  s2.forEach (s.pushes t th r) fun z n => z.arrRead t 2 (aDescr t (s.portDescr t n)) 32

/-- A run step (R137, R150, R155, R156, R160): held until the MNI slots and ports are there, then every FU executes, the
ports and macro-node outputs act, and after the last run step the next entry is chosen. -/
def State.runStep (s : State) (t th : Nat) : State × Option ArrStep :=
  let x := (s.arr t).thread th
  let pc := s.seqPc t th
  let len := (s.seqEntry t pc).run + 1
  if !s.threadRuns t th || x.run = 0 then (s, none)
  else match s.threadHold t th with
  | some n => (s.arrHold t th n, none)
  | none =>
    if x.run = 1 ∧ !s.mniReady t th then (s.arrHold t th 1, none)
    else
      let latched := if x.run = 1 then s.setArr t ((s.arr t).setThread th { x with mni := s.mniLatch t th }) else s
      match latched.portHold t th x.run with
      | some n => (s.arrHold t th n, none)
      | none =>
        if s.headBad t th || s.descrBad t th x.run then (s.arrStop t th 3 0x7F, none)
        else match s.rfBad t th with
        | some u => (s.arrStop t th 3 u, none)
        | none =>
          let s1 := (latched.runRead t th x.run).fuAll t th
          let s2 := s1.forEach (List.range 8) fun s i => s.mnoWrite t th x.run len i
          let s3 := (s2.portActions t th x.run).draw
          let shown : ArrStep := { t, thread := th, entry := pc, ctx := x.ctx, switch := false, branch := none, ind := none }
          if x.run < len then
            let a := s3.arr t
            ((s3.setArr t (a.setThread th { a.thread th with run := x.run + 1 })).arrStepped t th, some shown)
          else
            let (s4, br, ind) := s3.seqNext t th
            (s4.arrStepped t th, some { shown with branch := br, ind })

/-- The array has held one step for 2^HOLD_LOG2 cycles (R166): STREAM_FAULT cause 5. The occasion stands while the array
holds for a counted cause in a region that is not held itself. -/
def State.arrHoldTimeout (s : State) (t th : Nat) : State :=
  let src := s.fldOf (aArrStatus t) 18 3
  if s.bitOf (aArrStatus t) 17 && !s.arrRegionHold t th && !(src == 0 || src == 4 || src == 6) then s.streamFault t th 5 0x7F
  else s

end Sys2Proof.Machine
end

