-- ==== Sys2Proof/Machine/Trace.lean ====
section
/-! DEFINITION. Telltale trace and probe capture (R447 to R461): the packets of a source, its atoms, SYNC and losses; the
funnel and its sinks; the capture units. -/

namespace Sys2Proof.Machine

/-- Telltale source `src` of tile `t`: 0 flow, 1 data. -/
def State.ttSource (s : State) (t src : Nat) : TtSource := mapGet (fun _ => {}) s.trace.sources (2 * t + src)
def State.setTtSource (s : State) (t src : Nat) (v : TtSource) : State :=
  { s with trace := { s.trace with sources := mapSet (fun _ => {}) s.trace.sources (2 * t + src) v } }

/-- The source is enabled. -/
def State.ttOn (s : State) (t src : Nat) : Bool := s.bitOf (aTtCfg t) src

/-- Bytes a source has in its buffer of 2 KiB. -/
def State.ttUsed (s : State) (t src : Nat) : Nat :=
  (s.trace.packets.filter fun p => p.t == t && p.src == src).foldl (fun n p => n + p.bytes.length) 0

/-- A tap sends its oldest packet to the funnel at port 6 of its row's bridge, while it has a tag and none on its way: one
request that carries the packet, filled up with PAD to the 16 bytes of a well-formed one (R213, R229, R448; log 99). -/
def State.tapSend (s : State) (t : Nat) : State :=
  if s.noc.tags.any fun x => x.use == .telltale t then s
  else match s.trace.packets.find? fun p => p.t == t with
    | some p =>
      let n := max 16 p.bytes.length
      (s.sendTo t 5 .trace true 0 n ((p.bytes ++ zeros 16).take n) s.pos (.telltale t) (64 + t / 8, 6)).1
    | none => s

/-- A packet put into a source's buffer. -/
def State.ttPush (s : State) (t src : Nat) (bytes : List Byte) : State :=
  let x := s.ttSource t src
  let p : TtPacket := { t, src, bytes }
  let s1 : State := { s with trace := { s.trace with packets := s.trace.packets ++ [p] } }
  (s1.setTtSource t src { x with sinceSync := x.sinceSync + bytes.length }).tapSend t

/-- Header and SRC byte of a packet (R448). -/
def ttHead (type_ low t src : Nat) : List Byte := bytesOfNat 1 (16 * type_ + low) ++ bytesOfNat 1 (2 * t + src)

/-- STATE of a SYNC packet (R449). -/
def State.ttState (s : State) (t src : Nat) : List Byte :=
  if src = 0 then
    bytesOfNat 1 (s.seqPc t 0) ++ bytesOfNat 1 (s.seqPc t 1) ++ bytesOfNat 1 (b2n (s.tBusy t)) ++
      bytesOfNat 5 (s.fldOf (aArrFrame t) 0 48)
  else bytesOfNat 6 (s.ttSource t 1).prev ++ zeros 2

/-- SYNC packet as it stands now. -/
def State.ttSyncBytes (s : State) (t src : Nat) : List Byte :=
  ttHead 1 0 t src ++ bytesOfNat 8 s.tb ++ s.ttState t src

/-- A packet that finds no room is lost and counted (R447, R453, R456). -/
def State.ttLose (s : State) (t src : Nat) : State :=
  let x := s.ttSource t src
  (s.setTtSource t src { x with lost := x.lost + 1 }).count (aTtStat t) 16 32

/-- A packet put into the buffer while there is room and none is lost; else it is lost. -/
def State.ttTry (s : State) (t src : Nat) (bytes : List Byte) : State :=
  if 0 < (s.ttSource t src).lost ∨ 2048 < s.ttUsed t src + bytes.length then s.ttLose t src else s.ttPush t src bytes

/-- The atoms recorded so far are sent (R450). -/
def State.ttAtoms (s : State) (t : Nat) : State :=
  let x := s.ttSource t 0
  if x.atoms.isEmpty then s
  else
    let v := ((List.range x.atoms.length).zip x.atoms).foldl (fun n a => n + 2 ^ a.1 * b2n a.2) 0
    (s.setTtSource t 0 { x with atoms := [] }).ttTry t 0
      (ttHead 2 (8 * x.thread + (x.atoms.length - 1)) t 0 ++ bytesOfNat 1 v)

/-- SYNC sent, atoms before it (R449, R450). -/
def State.ttSync (s : State) (t src : Nat) : State :=
  let s1 := if src = 0 then s.ttAtoms t else s
  let s2 := s1.ttTry t src (s1.ttSyncBytes t src)
  s2.setTtSource t src { s2.ttSource t src with sinceSync := 0 }

/-- A packet other than SYNC of an enabled source: SYNC goes before it when 4,096 bytes have passed (R449). -/
def State.ttSend (s : State) (t src : Nat) (bytes : List Byte) : State :=
  if s.ttOn t src then
    let s1 := if 4096 ≤ (s.ttSource t src).sinceSync then s.ttSync t src else s
    s1.ttTry t src bytes
  else s

/-- 64 bytes of a source's buffer are free again after a loss: OVERFLOW with the count, then SYNC; a source that
is disabled sends nothing (R453). -/
def State.ttOverflow (s : State) (t src : Nat) : State :=
  let x := s.ttSource t src
  if s.ttOn t src = true ∧ 0 < x.lost ∧ s.ttUsed t src + 64 ≤ 2048 then
    let s1 := (s.setTtSource t src { x with lost := 0, atoms := [] }).ttPush t src
      (ttHead 6 0 t src ++ bytesOfNat 2 (min x.lost 65535))
    let s2 := (s1.count (aTtStat t) 0 16).ttPush t src (s1.ttSyncBytes t src)
    s2.setTtSource t src { s2.ttSource t src with sinceSync := 0 }
  else s

/-- TB ticks between the TS packets of a tile's sources (R452). -/
def State.tsInterval (s : State) (t : Nat) : Nat := 256 * (s.fldOf (aTtCfg t) 2 8 + 1)

/-- The next tick at which an enabled source sends TS; now, where none is enabled (R452). -/
def State.tsNext (s : State) : Nat :=
  let l := ((List.range 64).filter fun t => s.ttOn t 0 || s.ttOn t 1).map fun t => (s.tb / s.tsInterval t + 1) * s.tsInterval t
  match l with
  | [] => s.tb
  | x :: rest => rest.foldl min x

/-- The TS packet of every enabled source whose interval ends at this tick (R452). -/
def State.ttTs (s : State) : State :=
  s.forEach ((List.range 64).filter fun t => s.tb % s.tsInterval t == 0) fun s t =>
    let s1 := (if s.ttOn t 0 then s.ttAtoms t else s).ttSend t 0 (ttHead 5 0 t 0 ++ bytesOfNat 8 s.tb)
    s1.ttSend t 1 (ttHead 5 0 t 1 ++ bytesOfNat 8 s.tb)

/-- PWR of every enabled source of a tile: 0 ON followed by SYNC, 1 GATED, 2 RETENTION (R454). -/
def State.ttPwr (s : State) (t st : Nat) : State :=
  s.forEach [0, 1] fun s src =>
    if s.ttOn t src then
      let s1 := (if src = 0 then s.ttAtoms t else s).ttSend t src (ttHead 7 st t src ++ bytesOfNat 8 s.tb)
      if st = 0 then s1.ttSync t src else s1
    else s

/-- The tile has lost power: its sources send nothing for what was lost until then (R453). -/
def State.ttGap (s : State) (t : Nat) : State :=
  s.forEach [0, 1] fun s src => s.setTtSource t src { s.ttSource t src with lost := 0, atoms := [] }

/-- A BR outcome recorded as an atom; eight make a packet (R450). -/
def State.ttBranch (s : State) (t th : Nat) (taken : Bool) : State :=
  if s.ttOn t 0 then
    let s1 := if (s.ttSource t 0).thread ≠ th then s.ttAtoms t else s
    let x := s1.ttSource t 0
    let s2 := s1.setTtSource t 0 { x with atoms := x.atoms ++ [taken], thread := th }
    if 8 ≤ x.atoms.length + 1 then s2.ttAtoms t else s2
  else s

/-- An IND outcome (R450). -/
def State.ttInd (s : State) (t th target : Nat) : State :=
  if s.ttOn t 0 then (s.ttAtoms t).ttSend t 0 (ttHead 3 (8 * th) t 0 ++ bytesOfNat 1 target) else s

/-- Groups of seven bits, least significant first (R451). -/
def varint : Nat → Nat → List Byte
  | 0, _ => []
  | fuel + 1, z => if z < 128 then [BitVec.ofNat 8 z] else BitVec.ofNat 8 (z % 128 + 128) :: varint fuel (z / 128)

/-- An enabled filter range holds the address (R451). -/
def State.ttFilter (s : State) (t a : Nat) : Bool :=
  (List.range 8).any fun r => s.bitOf (aTtCfg t) (10 + r) && decide (s.fldOf (aFunLo r) 0 48 ≤ a ∧ a ≤ s.fldOf (aFunHi r) 0 48)

/-- A schedule access shown to the data source (R451). -/
def State.ttData (s : State) (t : Nat) (write port : Bool) (who a : Nat) (data : List Byte) : State :=
  if s.ttOn t 1 && s.ttFilter t a then
    let z := if (s.ttSource t 1).prev ≤ a then 2 * (a - (s.ttSource t 1).prev) else 2 * ((s.ttSource t 1).prev - a) - 1
    let s1 := s.ttSend t 1 (ttHead 4 (8 * b2n write + 2 * Nat.log2 data.length + b2n port) t 1 ++ bytesOfNat 1 who ++
      varint 7 z ++ data)
    s1.setTtSource t 1 { s1.ttSource t 1 with prev := a }
  else s

/-- TT_CFG written: a source that becomes enabled begins with SYNC (R449). -/
def State.ttConfig (s : State) (t : Nat) (v : W64) : State :=
  let old := s.reg (aTtCfg t)
  let s0 := if bit old 0 && !bit v 0 then s.ttAtoms t else s
  let s1 := s0.setReg (aTtCfg t) (v &&& bits 17 0)
  s1.forEach [0, 1] fun s src =>
    if bit v src && !bit old src then (s.setTtSource t src { prev := (s.ttSource t src).prev }).ttSync t src else s

/- The funnel (R455, R457). -/

/-- Copies of a DRAM line in the stream caches dropped as R162 asks. -/
def State.dropLine (s : State) (line : Nat) : State :=
  let g := dramChannel (64 * line)
  let c := s.chan g
  let holders := (c.snoop.filter fun e => e.line == line).flatMap (·.holders)
  let s1 := s.setChan g { c with snoop := c.snoop.filter fun e => e.line != line }
  s1.forEach holders fun s h => if h < 64 then s.cacheDrop h line else s

/-- A write that reaches DRAM in one step of the model: the firmware's engines and the funnel. It waits for the zero fill of
every channel it touches (R185); copies in the stream caches are dropped as R162 asks. -/
def State.directDram (s : State) (a : Nat) (bs : List Byte) : State :=
  let lines := (List.range ((a + bs.length + 63) / 64 - a / 64)).map fun i => a / 64 + i
  let s1 := s.forEach lines fun s l => (s.dramZero (dramChannel (64 * l))).dropLine l
  (s1.markPages a bs.length).store a bs

/-- Every granule that `n` bytes from an address touch has an owner code, and the bytes lie in DRAM. -/
def State.ownedBy (s : State) (code a n : Nat) : Bool :=
  decide (a + n ≤ if s.part.dram64 then 0x10_0000_0000 else 0x8_0000_0000) &&
  (List.range ((a + n - 1) / 0x400_0000 + 1 - a / 0x400_0000)).all fun i => s.ownerOf ((a / 0x400_0000 + i) * 0x400_0000) == code

/-- Writes to host memory go out while the link is up and bus mastering is enabled (R334). -/
def State.hostReach (s : State) : Bool := s.bitOf aHpStat 7 && s.host.busMaster

def State.hostWrite (s : State) (a : Nat) (bs : List Byte) : State :=
  { s with host := { s.host with writes := s.host.writes ++ [(a, bs)] } }

/-- The pieces, as address offset and bytes, of a packet written into a ring of `size` bytes at `w`. -/
def ringPieces (size w : Nat) (bs : List Byte) : List (Nat × List Byte) :=
  if w + bs.length ≤ size then [(w, bs)] else [(w, bs.take (size - w)), (0, bs.drop (size - w))]

/-- A packet put into the ring at WPTR: the bytes, the pointer, the threshold vector. -/
def State.ringWrite (s : State) (bs : List Byte) (put : State → Nat → List Byte → State) : State :=
  let size := s.fldOf aFunSize 0 32
  let w := s.fldOf aFunWptr 0 32
  let r := s.fldOf aFunRptr 0 32
  let unread := (w + size - r % size) % size
  let th := s.fldOf aFunSize 32 32
  let s1 := (s.forEach (ringPieces size w bs) fun s p => put s ((s.reg aFunBase).toNat + p.1) p.2).setFld aFunWptr 0 32
    ((w + bs.length) % size)
  if unread ≤ th ∧ th < unread + bs.length then s1.msix (s.fldOf aFunSink 11 6) else s1

/-- The ring has room for a packet: always in wrap mode; in stop mode until the writer would reach the reader. -/
def State.ringRoom (s : State) (n : Nat) : Bool :=
  let size := s.fldOf aFunSize 0 32
  let w := s.fldOf aFunWptr 0 32
  let r := s.fldOf aFunRptr 0 32
  decide (n ≤ size) && (s.bitOf aFunSink 2 || decide ((w + size - r % size) % size + n < size))

/-- The first status other than OK that the controllers give the funnel's write of `n` bytes (R192). -/
def State.ringStatus (s : State) (a n : Nat) : Nat :=
  ((List.range ((a + n - 1) / 0x400_0000 + 1 - a / 0x400_0000)).map fun i =>
      let x := (a / 0x400_0000 + i) * 0x400_0000
      if placeOf s.part x = .dram then ownerStatus (s.ownerOf x) (s.granuleFences.testBit (s.ownerOf x)) .trace true else stDecode).foldl
    (fun r st => if r = stOk then st else r) stOk

/-- The funnel's write of a packet into its ring in DRAM: every byte of it, or the packet is lost and counted and its status
recorded (R192, R223, R237). -/
def State.ringDram (s : State) (p : TtPacket) : State :=
  let size := s.fldOf aFunSize 0 32
  let pieces := (ringPieces size (s.fldOf aFunWptr 0 32) p.bytes).map fun x => ((s.reg aFunBase).toNat + x.1, x.2.length)
  match (pieces.map fun x => (x.1, s.ringStatus x.1 x.2)).find? fun x => x.2 != stOk with
  | none => s.ringWrite p.bytes fun s a bs => s.directDram a bs
  | some (a, st) =>
    let node := if placeOf s.part a = .dram then channelTile (dramChannel a) else 64
    (if st = stFenced then s.fencedRsp node else s.nocErr a st (originCode .trace) node).ttLose p.t p.src

/-- The funnel sinks a packet (R455). -/
def State.sinkPacket (s : State) (p : TtPacket) : State :=
  match s.fldOf aFunSink 0 2 with
  | 1 => s.ringDram p
  | 2 => if s.hostReach then s.ringWrite p.bytes fun s a bs => s.hostWrite a bs else (s.count aHpStat 8 16).ttLose p.t p.src
  | 3 => s.linkMsg (s.fldOf aFunSink 3 8) 5 p.bytes
  | _ => s

/-- The funnel can take a packet: not into a stop-mode ring that would reach its read pointer. -/
def State.sinkRoom (s : State) (n : Nat) : Bool :=
  let k := s.fldOf aFunSink 0 2
  (k != 1 && k != 2) || s.ringRoom n

/-- The funnel sinks the next packet that has reached it and answers its tap (R455). -/
def State.ttSink (s : State) : State :=
  match s.trace.atFunnel with
  | [] => s
  | q :: more =>
    match takeFirst (fun (p : TtPacket) => p.t == q.srcNode) s.trace.packets with
    | none => ({ s with trace := { s.trace with atFunnel := more } } : State).answer q stOk [] false
    | some (p, rest) =>
      if s.sinkRoom p.bytes.length then
        (({ s with trace := { s.trace with packets := rest, atFunnel := more } } : State).sinkPacket p).answer q stOk [] false
      else s

/- Probe capture (R459 to R461). -/

/-- Capacity of a buffer in records. PAGES of 16 bits holds the largest buffer, 256 MiB, as 0 (log 43). -/
def State.capCapacity (s : State) (t : Nat) : Nat :=
  512 * (if s.fldOf (aCapCfg t) 48 16 = 0 then 65536 else s.fldOf (aCapCfg t) 48 16)

/-- CAP_CFG written (R459): a unit starts at the next ecycle boundary, waits for CAP_START, or stops. -/
def State.capConfig (s : State) (t : Nat) (v : W64) : State :=
  let s1 := s.setReg (aCapCfg t) (v &&& (bits 3 0 ||| bits 63 12))
  if bit v 0 then
    ((s1.setCap t { startAt := if bit v 3 then none else some (s.unbegun (regionOfTile t)) }).setReg (aCapStat t) 0).setReg
      (aCapCnt t) 0
  else (s1.setCap t {}).setBit (aCapStat t) 0 false

/-- A start, or a stop, at a boundary (R445): both for one boundary resolve to stopped. -/
def State.capStart (s : State) (t b : Nat) : State :=
  if s.bitOf (aCapCfg t) 0 && s.bitOf (aCapCfg t) 3 && !s.bitOf (aCapStat t) 0 && (s.cap t).stopAt != some b then
    s.setCap t { s.cap t with startAt := some b, stopAt := none }
  else s

def State.capStop (s : State) (t b : Nat) : State :=
  if s.bitOf (aCapCfg t) 0 then s.setCap t { s.cap t with stopAt := some b } else s

/-- The unit takes records of period `c`. -/
def State.capTakes (s : State) (t c : Nat) : Bool :=
  let x := s.cap t
  s.bitOf (aCapCfg t) 0 && !s.bitOf (aCapStat t) 1 && !s.bitOf (aCapStat t) 2 &&
  (match x.startAt with
   | some b => decide (b ≤ c)
   | none => false) &&
  (match x.stopAt with
   | some b => decide (c < b)
   | none => true)

/-- A record in its place among the staged ones; of several clusters in one step the lowest-numbered stands. -/
def capInsert (r : CapRec) : List CapRec → List CapRec
  | [] => [r]
  | x :: rest =>
    if x.c = r.c ∧ x.p = r.p then
      (if r.cluster < x.cluster then { r with conflict := true } else { x with conflict := true }) :: rest
    else if r.c < x.c ∨ (r.c = x.c ∧ r.p < x.p) then r :: x :: rest
    else x :: capInsert r rest

/-- A cluster of tile `t` has performed a step: RUNNING, the record of a step that sets CAP, LOST (R459). -/
def State.capStep (s : State) (x : CluStep) : State :=
  let t := x.t
  let u := s.cap t
  let s0 := match u.stopAt with
    | some b => if b ≤ x.c ∧ s.bitOf (aCapStat t) 0 then s.setBit (aCapStat t) 0 false else s
    | none => s
  if s0.capTakes t x.c then
    let s1 := s0.setBit (aCapStat t) 0 true
    if x.cap then
      let half := if s.bitOf (aCapCfg t) 1 then x.bus.extractLsb' 64 64 else x.bus.extractLsb' 0 64
      let again := u.staged.any fun y => y.c == x.c && y.p == x.p
      if 512 ≤ u.staged.length ∧ !again then (s1.setBit (aCapStat t) 2 true).setBit (aCapStat t) 0 false
      else
        let l := capInsert { c := x.c, p := x.p, cluster := x.name, data := half, conflict := false } u.staged
        let s2 := s1.setCap t { u with staged := l }
        if again ∧ !(u.staged.any fun y => y.c == x.c && y.p == x.p && y.conflict) then s2.count (aCapCnt t) 40 16 else s2
    else s1
  else s0

/-- The buffer is full: the unit stops (R459). -/
def State.capFull (s : State) (t : Nat) : State :=
  ((s.setCap t { s.cap t with staged := [] }).setBit (aCapStat t) 1 true).setBit (aCapStat t) 0 false

/-- The region of tile `t` is released anew: its periods count from 0 again, so that a unit that takes records goes on, and one
that a CAP_STOP ended stays stopped. -/
def State.capRelease (s : State) (t : Nat) : State :=
  let u := s.cap t
  if u.stopAt.isSome then (s.setCap t { u with startAt := none, stopAt := none }).setBit (aCapStat t) 0 false
  else if u.startAt.isSome then s.setCap t { u with startAt := some 0 }
  else s

/-- The outcome of a stored record (R223, R459): the next one follows, or, where its write was refused, it is lost: LOST sets
and the unit stops, so that the stored records form an unbroken run (log 99). -/
def State.capOutcome (s : State) (t status : Nat) : State :=
  if status = stOk then s
  else
    let s1 := s.setFld (aCapCnt t) 0 40 (s.fldOf (aCapCnt t) 0 40 - 1)
    ((s1.setCap t { s.cap t with staged := [] }).setBit (aCapStat t) 2 true).setBit (aCapStat t) 0 false

/-- Stores the first staged record of tile `t`, with the record before it stored, once every cluster of the tile has completed its step, or the unit has
stopped; the first record's place is noted (R459, R460). -/
def State.capFlush (s : State) (t : Nat) : State :=
  let u := s.cap t
  match u.staged with
  | [] => s
  | r :: rest =>
    let m := regionOfTile t
    if s.noc.tags.any (fun x => x.use == .capture t) || !(((s.members m).filter fun tc => tc.1 == t).all fun tc => s.passed t tc.2 r.c r.p) then s
    else
      let n := s.fldOf (aCapCnt t) 0 40
      let size := s.capCapacity t
      if size ≤ n ∧ !(s.bitOf (aCapCfg t) 2 && decide (0 < size)) then
        s.capFull t
      else
        let a := s.fldOf (aCapCfg t) 12 36 * 4096 + 8 * (n % size)
        let q := s.sendReq t 5 .trace true a 8 (bytesOfNat 8 r.data.toNat) s.pos (.capture t)
        if q.2 then
          let s1 := (q.1.setCap t { u with staged := rest, first := true }).setFld (aCapCnt t) 0 40 (n + 1)
          let s2 := if u.first then s1
            else s1.setReg (aCapStat t) (putFld (putFld (s1.reg (aCapStat t)) 4 12 r.p) 16 48 r.c)
          if size ≤ n + 1 ∧ !s.bitOf (aCapCfg t) 2 then s2.capFull t else s2
        else s

end Sys2Proof.Machine
end

