-- ==== Sys2Proof/Machine/Debug.lean ====
section
/-! DEFINITION. The debug block (R435 to R446): link groups, halts at ecycle boundaries, stepping, release, triggers and
breakpoints with their actions. -/

namespace Sys2Proof.Machine

/- Link groups (R78, R129). -/

/-- Owners of the valid delivery entries of tile `t`. -/
def State.guests (s : State) (t : Nat) : List Nat := ((s.slots t).filter fun x => decide (5 ≤ x.out)).map (·.owner)

/-- The image links two regions: a delivery in a tile of one serves a route that the other owns. -/
def State.linked (s : State) (m n : Nat) : Bool :=
  m != n && ((tilesOf m).any (fun t => (s.guests t).contains n) || (tilesOf n).any fun t => (s.guests t).contains m)

/-- The regions reached from a set over links, one link further at each step. -/
def closeGroup (s : State) : Nat → List Nat → List Nat
  | 0, g => g
  | n + 1, g => closeGroup s n ((List.range 16).filter fun x => g.contains x || g.any fun y => s.linked x y)

/-- Link group of a region on this device, in order of region. -/
def State.group (s : State) (m : Nat) : List Nat := closeGroup s 15 ((List.range 16).filter (· == m))

/- Halts (R436 to R438). -/

/-- A halt of region `m` at boundary `b`, or at its next one where it has passed `b`; of two halts the earlier boundary
wins and REASON names the first request (R445). A halt during stepping counts where it comes before the stepping's end. -/
def State.requestHalt (s : State) (m b reason src : Nat) : State :=
  let r := s.rgn m
  let b := max b (s.unbegun m)
  if s.halted m then s
  else match r.haltAt with
  | none => s.setRgn m { r with haltAt := some b, haltReason := reason, haltSrc := src }
  | some x =>
    if x ≤ b then s
    else if r.stepping then s.setRgn m { r with haltAt := some b, haltReason := reason, haltSrc := src }
    else s.setRgn m { r with haltAt := some b }

/-- The region has halted (R436 to R440). -/
def State.haltNow (s : State) (m reason src : Nat) : State :=
  let r := s.rgn m
  let v := putFld (putFld (putFld (putFld (s.reg (aDbgHalt m)) 0 1 0) 4 1 1) 5 3 reason) 8 4 src
  ((s.setReg (aDbgHalt m) v).setBit (aDbgAt m) 48 false).setRgn m
    { r with haltAt := none, haltReason := 0, haltSrc := 0, haltTick := s.tb, stepping := false }

/-- Every cluster of the region, and every thread of its enabled arrays that runs, has performed its steps (R439). -/
def State.stepsDone (s : State) (m : Nat) : Bool :=
  ((s.members m).all fun tc => (s.clu (cluKey tc.1 tc.2)).stepsLeft == 0) &&
  (tilesOf m).all fun t => [0, 1].all fun th => !s.threadRuns t th || ((s.arr t).thread th).stepsLeft == 0

/-- HALTED sets once every cluster stands at the halt's boundary, at AT_ECY's, or has performed the steps asked for. -/
def State.settleHalt (s : State) (m : Nat) : State :=
  let r := s.rgn m
  if !r.released || s.halted m then s
  else
    let due := match r.haltAt with
      | some b => s.atBoundary m b
      | none => false
    if due then s.haltNow m r.haltReason r.haltSrc
    else if s.atMatch m (s.slowest m) && s.atBoundary m (s.slowest m) then s.haltNow m 7 0
    else if r.stepping && s.bitOf (aDbgHalt m) 3 && s.stepsDone m then s.haltNow m 5 0
    else s

/-- HALT_REQ set: a halt at the first boundary that no cluster has passed (R438). -/
def State.haltReq (s : State) (m : Nat) : State :=
  if s.halted m then s
  else ((s.setBit (aDbgHalt m) 0 true).requestHalt m (s.unbegun m) 1 0).settleHalt m

/-- STEP_GO of a halted region (R439). -/
def State.stepGo (s : State) (m : Nat) : State :=
  if !s.halted m then s
  else
    let r := s.rgn m
    let n := s.fldOf (aDbgHalt m) 12 20
    let s1 := (s.setBit (aDbgHalt m) 4 false).driveBridge m
    let r1 := { r with stepping := true, haltSum := r.haltSum + (s.tb - r.haltTick) }
    if s.bitOf (aDbgHalt m) 3 then
      let s2 := (s1.setRgn m { r1 with haltAt := none }).forEach (s.members m) fun s tc =>
        s.setClu (cluKey tc.1 tc.2) { s.clu (cluKey tc.1 tc.2) with stepsLeft := n }
      (s2.forEach ((tilesOf m).filter s.arrOn) fun s t =>
        let a := s.arr t
        s.setArr t { a with h := { a.h with stepsLeft := n }, t := { a.t with stepsLeft := n } }).settleHalt m
    else
      (s1.setRgn m { r1 with haltAt := some (s.fastest m + n), haltReason := 5, haltSrc := 0 }).settleHalt m

/-- RUN of a halted region (R440): a paced region's grid moves by the halted time. -/
def State.dbgRun (s : State) (m : Nat) : State :=
  if !s.halted m then s
  else
    let r := s.rgn m
    let t := r.haltSum + (s.tb - r.haltTick)
    ((s.setBit (aDbgHalt m) 4 false).setRgn m
      { r with s0 := if (s.sched m).rt then r.s0 + roundUp t (s.pace m) else r.s0, haltSum := 0, stepping := false }).driveBridge m

/-- DBG_HALT written by a writer that may (R437). -/
def State.dbgHaltWrite (s : State) (m : Nat) (v : W64) : State :=
  let s1 := s.setReg (aDbgHalt m) (putFld (putFld (s.reg (aDbgHalt m)) 3 1 (fld v 3 1)) 12 20 (fld v 12 20))
  let s2 := if bit v 0 then s1.haltReq m else s1
  let s3 := if bit v 1 then s2.dbgRun m else s2
  if bit v 2 then s3.stepGo m else s3

/- Actions of triggers (R445). -/

/-- TT_START enables the sources that the latest TRACE_SET named in a region's tiles; TT_STOP disables every source of
them, and wins over TT_START. -/
def State.ttSwitch (s : State) (m : Nat) (on : Bool) : State :=
  s.forEach (tilesOf m) fun s t =>
    let v := s.reg (aTtCfg t)
    let f := if on then s.trace.flowTiles / 2 ^ t % 2 else 0
    let d := if on then s.trace.dataTiles / 2 ^ t % 2 else 0
    s.ttConfig t (if on then v ||| BitVec.ofNat 64 (f + 2 * d) else putFld v 0 2 0)

/-- The actions of a trigger of region `m` at boundary `b`. -/
def State.fireActions (s : State) (m acts b reason src : Nat) : State :=
  let on := fun (i : Nat) => acts / 2 ^ i % 2 == 1
  let g := s.joinEcy m + b
  let s1 := if on 0 || on 1 then s.requestHalt m b reason src else s
  let s2 := if on 1 then
      let s2 := s1.forEach ((s1.group m).filter (· != m)) fun s n => (s.requestHalt n (g - s.joinEcy n) 6 0).settleHalt n
      let s3 : State := { s2 with casc := { s2.casc with outbox := s2.casc.outbox ++ [.haltGroup m g] } }
      if s2.bitOf aCascStat 5 then s3 else s2
    else s1
  let s3 := if on 2 then s2.forEach (tilesOf m) fun s t => s.capStart t b else s2
  let s4 := if on 3 then s3.forEach (tilesOf m) fun s t => s.capStop t b else s3
  let s5 := if on 4 && !on 5 then s4.ttSwitch m true else s4
  let s6 := if on 5 then s5.ttSwitch m false else s5
  s6.settleHalt m

/-- Compare trigger `n` matches a performed step (R441). -/
def State.cmpMatches (s : State) (n : Nat) (x : CluStep) : Bool :=
  let c := s.reg (aDbgCmpCfg n)
  let h : W64 := if bit c 28 then x.bus.extractLsb' 64 64 else x.bus.extractLsb' 0 64
  bit c 0 && fld c 1 6 == x.t && fld c 7 8 == x.name && x.hasCw && (bit c 27 || fld c 15 12 == x.p) &&
  (((h ^^^ s.reg (aDbgCmpVal n)) &&& s.reg (aDbgCmpMask n)) != 0) == bit c 29

/-- The compare triggers that a performed step fires: they act at boundary c + 2 (R441, R442, R445). -/
def State.compareTriggers (s : State) (x : CluStep) : State :=
  s.forEach (List.range 16) fun s n =>
    if s.cmpMatches n x then
      let c := s.reg (aDbgCmpCfg n)
      let s1 := if bit c 37 then s else s.setReg (aDbgCmpEcy n) (BitVec.ofNat 64 ((s.joinEcy x.m + x.c) % 2 ^ 48))
      let c1 := putFld c 37 1 1
      (s1.setReg (aDbgCmpCfg n) (if bit c 36 then putFld c1 0 1 0 else c1)).fireActions x.m (fld c 30 6) (x.c + 2) 2 n
    else s

/-- The ecycle triggers of a region whose first cluster has reached the boundary of period `c` (R443). -/
def State.ecycleTriggers (s : State) (m c : Nat) : State :=
  s.forEach (List.range 8) fun s n =>
    let v := s.reg (aDbgEcy n)
    if bit v 52 && fld v 48 4 == m && fld v 0 48 == s.joinEcy m + c then
      (s.setReg (aDbgEcy n) (putFld (putFld v 52 1 0) 59 1 1)).fireActions m (fld v 53 6) c 3 n
    else s

/-- Array breakpoints at a switch step (R444, R445): they act at boundary c + 2 of the frame's number. -/
def State.arrayBreak (s : State) (x : ArrStep) (frame : Nat) : State :=
  let v := s.reg (aArrBrk x.t)
  let m := regionOfTile x.t
  let who := fld v 16 2
  if x.switch && (bit v 0 || bit v 9) && (!bit v 0 || fld v 1 8 == x.entry) && (!bit v 9 || fld v 10 6 == x.ctx) &&
      (who == 0 || who == x.thread + 1) then
    let v1 := putFld v 25 1 1
    let idx := (tilesOf m).findIdx (· == x.t)
    (s.setReg (aArrBrk x.t) (if bit v 24 then putFld (putFld v1 0 1 0) 9 1 0 else v1)).fireActions m (fld v 18 6)
      (frame + 2) 4 idx
  else s

/- BREAK_SET (R446). -/

/-- What a BREAK_SET payload asks for: the trigger, with its region; none where a field is out of place. -/
def breakTarget (p : List Byte) : Option (Nat × Nat × Nat) :=
  let kind := leNum p 0 1
  let i := leNum p 1 1
  let w0 := BitVec.ofNat 64 (leNum p 8 8)
  if p.length ≠ 32 ∨ !allZero (sub p 2 6) then none
  else match kind with
  | 0 => if i < 16 ∧ w0 &&& ~~~(bits 37 0) = 0 ∧ fld w0 7 8 < 132 then some (0, i, regionOfTile (fld w0 1 6)) else none
  | 1 => if i < 8 ∧ w0 &&& ~~~(bits 59 0) = 0 ∧ allZero (sub p 16 16) then some (1, i, fld w0 48 4) else none
  | 2 => if i < 64 ∧ w0 &&& ~~~(bits 25 0) = 0 ∧ fld w0 16 2 < 3 ∧ allZero (sub p 16 16) then some (2, i, regionOfTile i)
      else none
  | _ => none

/-- The writes of BREAK_SET, WORD0 last, with FIRED cleared. -/
def State.breakWrite (s : State) (p : List Byte) (kind i : Nat) : State :=
  let w := fun (o : Nat) => BitVec.ofNat 64 (leNum p o 8)
  match kind with
  | 0 => ((s.setReg (aDbgCmpMask i) (w 16)).setReg (aDbgCmpVal i) (w 24)).setReg (aDbgCmpCfg i) (w 8 &&& bits 36 0)
  | 1 => s.setReg (aDbgEcy i) (w 8 &&& bits 58 0)
  | _ => s.setReg (aArrBrk i) (w 8 &&& bits 24 0)

end Sys2Proof.Machine
end

