-- ==== Sys2Proof/Machine/Power.lean ====
section
/-! DEFINITION. Yards, clocks, power states, sensing, reefing and aging (R27, R362 to R385, R389, R390). -/

namespace Sys2Proof.Machine

/- Yards (R367 to R370). -/

/-- The fabric die of a tile (R18, R19). -/
def dieOf (t : Nat) : Nat := 2 * (t / 8 / 4) + t % 8 / 4

/-- Compute yard of tile `t`, and its leaf `b`. -/
def tileYard (t : Nat) : Nat := 0x40 + t
def leafYard (t b : Nat) : Nat := 0x100 + 16 * t + b

/-- The identifier names a yard. -/
def yardExists (y : Nat) : Bool :=
  decide ((1 ≤ y ∧ y ≤ 5) ∨ (0x40 ≤ y ∧ y < 0x80) ∨ (0x100 ≤ y ∧ y < 0x500 ∧ y % 16 < 13) ∨ (0x500 ≤ y ∧ y ≤ 0x50A))

/-- Parent of a yard; none for a child of the Mast. -/
def yardParent (y : Nat) : Option Nat :=
  if y < 0x40 then none
  else if y < 0x80 then some (1 + dieOf (y - 0x40))
  else if y < 0x500 then some (0x40 + (y - 0x100) / 16)
  else some 5

/-- The yard and those above it, from the Mast down. -/
def yardChain (y : Nat) : List Nat :=
  match yardParent y with
  | none => [y]
  | some p => match yardParent p with
    | none => [p, y]
    | some q => [q, p, y]

/-- Clocks reach the block below a yard. A yard is open only below open ones. -/
def State.clocked (s : State) (y : Nat) : Bool := s.clk.opened.contains y

/-- Leaf of a cluster. -/
def cluLeaf (t pc : Nat) : Nat := leafYard t (if pc < 128 then pc / 16 else 8)

/-- A packet that has reached an endpoint of tile `t` and is not yet served; for port 0, one that names leaf `b`. -/
def State.waitsAt (s : State) (t port b : Nat) : Bool :=
  s.noc.arrived.any fun p => pktDst p == (t, port) && (match p with
    | .req q => port != 0 || (match placeOf s.part q.addr with
        | .cluster _ _ c _ => b == (if c < 128 then c / 16 else 8)
        | .array _ _ => b == 9
        | .tileRegs _ o => if 0x8000 ≤ o ∧ o < 0xA100 then
            let c := (o - 0x8000) / 64
            b == (if c < 128 then c / 16 else 8)
          else false
        | _ => false)
    | _ => true)

/-- A requester of tile `t` holds a transaction (R229). -/
def State.requesting (s : State) (t port : Nat) : Bool := s.noc.tags.any fun x => x.node == t && x.port == port

/-- Bus activity of a leaf (R368). -/
def State.leafBusy (s : State) (t b : Nat) : Bool :=
  if b < 9 then s.waitsAt t 0 b
  else if b = 9 then s.waitsAt t 0 9 || s.waitsAt t 4 0 || s.requesting t 4
  else if b = 10 then s.waitsAt t 3 0 || s.requesting t 3
  else if b = 11 then s.waitsAt t 5 0 || s.requesting t 5
  else s.waitsAt t 1 0 || (List.range 16).any fun k => !(s.bank (bankKey t k)).queue.isEmpty || (s.bank (bankKey t k)).second.isSome

def State.tileBusy (s : State) (t : Nat) : Bool := (List.range 13).any (s.leafBusy t)

/-- Bus activity of the blocks below a yard. -/
def State.yardBusy (s : State) (y : Nat) : Bool :=
  if y < 5 then (List.range 64).any fun t => dieOf t + 1 == y && s.tileBusy t
  else if y = 5 then !s.glue.bar4.isEmpty || s.noc.arrived.any fun p => decide (64 ≤ (pktDst p).1) && (pktDst p).2 == 4
  else if y < 0x80 then s.tileBusy (y - 0x40)
  else if y < 0x500 then s.leafBusy ((y - 0x100) / 16) (y % 16)
  else s.glue.bar4.any fun r => r.n + 0x500 == y

/-- A yard set open or closed, with GATED of a tile's compute yard. -/
def State.setYard (s : State) (y : Nat) (on : Bool) : State :=
  let rest := s.clk.opened.filter (· != y)
  let s1 : State := { s with clk := { s.clk with opened := if on then rest ++ [y] else rest } }
  if 0x40 ≤ y ∧ y < 0x80 then s1.setBit (aTilePwr (y - 0x40)) 2 (!on) else s1

/-- Opens every closed yard from the Mast to the named one (R369); the sources of a tile that leaves GATED send PWR and
SYNC (R454). -/
def State.openYard (s : State) (y : Nat) : State :=
  s.forEach (yardChain y) fun s z =>
    if s.clocked z then s
    else
      let s1 := s.setYard z true
      if 0x40 ≤ z ∧ z < 0x80 ∧ s1.fldOf (aTilePwr (z - 0x40)) 0 2 = 0 then s1.ttPwr (z - 0x40) 0 else s1

/-- Outcome of a close request: 1 OK, 2 CHILD_ACTIVE, 3 BUS_BUSY, 4 no such yard (R368). -/
def State.closeResult (s : State) (y : Nat) : Nat :=
  if !yardExists y then 4
  else if s.clk.opened.any fun z => yardParent z == some y then 2
  else if s.yardBusy y then 3
  else 1

/-- A close that is granted (R368): the Telltale sources of a tile that becomes GATED send PWR first (R454). -/
def State.closeYard (s : State) (y : Nat) : State :=
  if s.closeResult y = 1 ∧ s.clocked y then
    let s1 := if 0x40 ≤ y ∧ y < 0x80 ∧ s.fldOf (aTilePwr (y - 0x40)) 0 2 = 0 then s.ttPwr (y - 0x40) 1 else s
    s1.setYard y false
  else s

/-- YARD_RESULT after a request (R389). -/
def State.yardResult (s : State) (y result : Nat) : State :=
  let v := putFld (putFld (putFld (s.reg aYardResult) 0 12 y) 12 3 result) 15 1 (b2n (yardExists y && !s.clocked y))
  s.setReg aYardResult v

/-- A close request through YARD_CMD (R368). -/
def State.yardCloseReq (s : State) (y : Nat) : State :=
  let r := s.closeResult y
  let s1 := (s.closeYard y).yardResult (y % 4096) r
  if r = 1 then s1 else s1.count aYardResult 16 32

/-- An open request through YARD_CMD (R369). -/
def State.yardOpenReq (s : State) (y : Nat) : State :=
  if yardExists y then (s.openYard y).yardResult y 1 else s.yardResult (y % 4096) 4

/-- Every yard of a tile opened. -/
def State.openTile (s : State) (t : Nat) : State := s.forEach (List.range 13) fun s b => s.openYard (leafYard t b)

/-- The compute yard of a tile closed with everything below it, as far as nothing there is busy (R370). -/
def State.closeTile (s : State) (t : Nat) : State :=
  (s.forEach (List.range 13) fun s b => s.closeYard (leafYard t b)).closeYard (tileYard t)

/-- The firmware's use of yard 0x005: closed with everything below it while no glue region is configured, else open (R370). -/
def State.ioYards (s : State) : State :=
  let kids := (List.range 11).map (0x500 + ·)
  if (List.range 8).any fun n => s.rgnState (16 + n) != 0 then s.forEach kids State.openYard
  else (s.forEach kids State.closeYard).closeYard 5

/-- Leaves of a tile that the committed usage table of its region leaves unused (R370). -/
def State.idleLeaves (s : State) (t : Nat) : List Nat :=
  let u := (s.rgn (regionOfTile t)).usage
  (List.range 13).filter fun b =>
    if b < 8 then !(u.clusters.any fun tc => tc.1 == t && tc.2 / 16 == b)
    else if b = 8 then !((List.range 4).any fun i => s.bitOf (aCluRemap t i) 0)
    else if b = 9 then !u.arrays.contains t
    else if b = 12 then !(u.banks.any fun tb => tb.1 == t)
    else false

/-- Leaves of a region's tiles at its release: open as far as its schedule can reach them, else closed (R370). -/
def State.releaseYards (s : State) (m : Nat) : State :=
  s.forEach (tilesOf m) fun s t =>
    let idle := s.idleLeaves t
    (s.forEach ((List.range 13).filter fun b => !idle.contains b) fun s b => s.openYard (leafYard t b)).forEach idle
      fun s b => s.closeYard (leafYard t b)

/- Power states (R27, R377). -/

def State.domainOf (s : State) (m : Nat) : Nat := s.fldOf (aTilePwr (homeTile m)) 0 2

/-- Every compute-domain memory of a tile: bases and lengths in the internal map (R377). -/
def tileMemories (t : Nat) : List (Nat × Nat) :=
  (cluMems.flatMap fun m => [(m.base + 128 * t * m.per, 128 * m.per), (m.spare + 4 * t * m.per, 4 * m.per)]) ++
  [(0x10_0000_0000 + 0x20_0000 * t, 0x20_0000), (0x13_0000_0000 + 0x4_0000 * t, 0x4_0000)]

/-- The address lies in a compute-domain memory of region `m`. -/
def inDomain (m a : Nat) : Bool := (tilesOf m).any fun t => (tileMemories t).any fun r => decide (r.1 ≤ a ∧ a < r.1 + r.2)

/-- The memories of a region's tiles at what the power-up leaves: zero, DV 0, GB 1, valid check bits (R377). -/
def State.powerUpMemories (s : State) (m : Nat) : State :=
  { s with mem := mapDropIf (inDomain m) s.mem, ecc := mapDropIf (inDomain m) s.ecc }

/-- A change of a region's compute domain begins (R377): TRANSIT sets; entry to RETENTION is preceded by PWR of the
Telltale sources (R454). -/
def State.powerBegin (s : State) (m st : Nat) : State :=
  let s1 := s.setRgn m { s.rgn m with pwrTarget := st }
  s1.forEach (tilesOf m) fun s t =>
    (if st = 1 ∧ s.fldOf (aTilePwr t) 0 2 = 0 then s.ttPwr t 2 else s).setBit (aTilePwr t) 3 true

/-- The region's domain reaches the state it moves to. -/
def State.powerDone (s : State) (m : Nat) : State :=
  let st := (s.rgn m).pwrTarget
  let old := s.domainOf m
  let s1 := s.forEach (tilesOf m) fun s t =>
    let s2 := (s.setReg (aTilePwr t) (putFld (putFld (s.reg (aTilePwr t)) 0 2 st) 3 1 0)).moveBanks t
    if st = 0 ∧ old = 1 then s2.ttPwr t 0 else if st = 2 then s2.ttGap t else s2
  if st = 2 ∨ (old = 2 ∧ st = 0) then
    let s3 := s1.powerUpMemories m
    if st = 0 then (s3.setFld (aCfgRgn m) 0 3 0).setRgn m { s3.rgn m with loaded := false, usage := {} } else s3
  else s1

/- Sensing (R378, R379, R390). -/

/-- TEMP code of a temperature in whole degrees. -/
def tempCode (c : Int) : Nat := ((c + 64) * 4).toNat

/-- Highest TEMP over the tiles. -/
def State.hottest (s : State) : Nat := (List.range 64).foldl (fun n t => max n (s.fldOf (aTileSens t) 0 12)) 0

/-- A sample of a tile's sensors; 64 and 65 stand for the two sensors of the I/O die (R378). -/
def State.sensorSample (s : State) (t temp vmin : Nat) : State :=
  if t < 64 then
    let r := s.reg (aTileSens t)
    s.setReg (aTileSens t) (putFld (putFld (putFld r 0 12 temp) 12 12 (max (temp % 4096) (fld r 12 12))) 24 12 vmin)
  else if t = 64 then { s with pwr := { s.pwr with ioTemp0 := temp % 4096 } }
  else if t = 65 then { s with pwr := { s.pwr with ioTemp1 := temp % 4096 } }
  else s

/-- The firmware's estimate of package power. -/
def State.powerEstimate (s : State) (dw : Nat) : State :=
  let r := s.reg aPwrEst
  let p := min dw 65535
  let s1 : State := { s with clk := { s.clk with pwrSum := s.clk.pwrSum + p, pwrCount := s.clk.pwrCount + 1 } }
  s1.setReg aPwrEst (putFld (putFld r 0 16 p) 16 16 (max p (fld r 16 16)))

/- Reefing (R363 to R366, R380 to R383). -/

def State.level (s : State) : Nat := s.fldOf aReefStat 0 3

/-- Dividers, as twice their value, of a row of R363: STEP, NOC, GLUE, PBUS. -/
def clockRow (speed15 : Bool) (level : Nat) : List Nat :=
  if speed15 then
    if level ≤ 2 then [8, 16, 32, 48] else if level = 3 then [12, 24, 48, 48] else [16, 32, 64, 64]
  else
    if level ≤ 2 then [10, 20, 40, 48] else if level = 3 then [15, 30, 60, 60] else [20, 40, 80, 80]

def Clk.row (c : Clk) : List Nat := [c.step2, c.noc2, c.glue2, c.pbus2]

def State.setRow (s : State) (l : List Nat) : State :=
  { s with clk := { s.clk with step2 := l.getD 0 8, noc2 := l.getD 1 16, glue2 := l.getD 2 32, pbus2 := l.getD 3 48 } }

/-- TB ticks per step on average at a level, as a fraction. -/
def ticksPerStep (level : Nat) : Nat × Nat := [(1, 1), (16, 15), (4, 3), (3, 2), (2, 1)].getD level (2, 1)

/-- RT_SAFE (R383). -/
def State.rtSafe (s : State) : Nat :=
  let rts := (List.range 16).filter fun m => s.rgnState m == 2 && (s.sched m).rt
  (List.range 5).foldl (fun best l =>
    let (n, d) := ticksPerStep l
    if rts.all fun m => decide ((s.sched m).per * n ≤ s.pace m * d) then l else best) 0

/-- The cap of R366 for the lanes that a link in force or recorded claims in Ethernet or raw mode. -/
def State.laneCap (s : State) : Nat :=
  let rates := s.links.flatMap fun e => (e.2.conf.toList ++ e.2.recorded.toList).filterMap fun r =>
    if 2 ≤ r.mode then some r.rate else none
  if s.part.speed15 then (if rates.any fun r => r == 1 || r == 2 then 3 else 4)
  else if rates.contains 2 then 2 else if rates.contains 1 then 3 else 4

/-- EFF_MAX (R364, R383): 2 while the dividers were set off the level-0 row. -/
def State.effMax (s : State) : Nat :=
  let c := s.fldOf aReefCfg 13 3
  let c := min c s.laneCap
  let moved := s.clk.row != clockRow s.part.speed15 s.level && s.clk.switchTo.isNone
  let c := if moved then min c 2 else c
  if s.bitOf aReefCfg 12 then min c s.rtSafe else c

/-- The level in force follows the firmware's level and EMERG (R382); between clock rows the dividers follow at a
reference edge (R365). -/
def State.applyLevel (s : State) : State :=
  let old := s.level
  let new := if s.bitOf aReefStat 9 then max s.clk.fwLevel 2 else s.clk.fwLevel
  let s1 := s.setFld aReefStat 0 3 new
  if clockRow s.part.speed15 old != clockRow s.part.speed15 new then
    { s1 with clk := { s1.clk with switchTo := some new } }
  else s1

/-- REEF_LEVEL for a change of the level in force since the latest one, and REEF_RT when it has risen above RT_SAFE
(R381 to R383). -/
def State.reportLevel (s : State) (cause : Nat) : State :=
  let old := s.clk.reported
  let new := s.level
  if new = old then s
  else
    let s1 : State := { s with clk := { s.clk with reported := new } }
    let s2 := s1.event 6 0xFF (bytesOfNat 1 old ++ bytesOfNat 1 new ++ bytesOfNat 1 cause)
    let safe := s.fldOf aReefStat 6 3
    if old < new ∧ safe < new then s2.event 7 0xFF (bytesOfNat 1 new ++ bytesOfNat 1 safe) else s2

/-- The dividers take the row of the level in force (R365). -/
def State.levelSwitch (s : State) : State :=
  match s.clk.switchTo with
  | none => s
  | some l => let s1 := s.setRow (clockRow s.part.speed15 l)
    { s1 with clk := { s1.clk with switchTo := none } }

/-- The firmware's level and its count of released evaluations. -/
def State.setFwLevel (s : State) (l n : Nat) : State := { s with clk := { s.clk with fwLevel := l, releaseMs := n } }

/-- The evaluation of every 1 ms (R381 to R383), on the average of the power estimates since the last one. The count of 10
begins at the evaluation that first finds the triggers released, as the chapter's worked example has it (log 51). -/
def State.reefEvaluate (s : State) : State :=
  let s0 := if 0 < s.level then s.count aReefStat 12 32 else s
  let s1 := s0.setFld aReefStat 6 3 s0.rtSafe
  let eff := s1.effMax
  let s2 := s1.setFld aReefStat 3 3 eff
  let s3 := if s2.clk.emergDue then s2.reportLevel 3 else s2
  let cfg := s3.reg aReefCfg
  let hot := s3.hottest
  let p := if s3.clk.pwrCount = 0 then s3.fldOf aPwrEst 0 16 else s3.clk.pwrSum / s3.clk.pwrCount
  let cap := 10 * fld cfg 16 10
  let tMet := decide (tempCode (fld cfg 0 8) ≤ hot)
  let pMet := decide (cap < p)
  let low := decide (hot ≤ tempCode ((fld cfg 0 8 : Int) - (fld cfg 8 4 : Int)) ∧ 100 * p ≤ 95 * cap)
  let l := s3.clk.fwLevel
  let n := s3.clk.releaseMs
  let s4 : State := { s3 with clk := { s3.clk with emergDue := false, pwrSum := 0, pwrCount := 0 } }
  let s5 :=
    if eff < l then s4.setFwLevel eff (b2n (low && !(tMet || pMet)))
    else if tMet || pMet then
      if l < eff then (s4.setFld aReefStat 10 2 (if tMet then 1 else 2)).setFwLevel (l + 1) 0 else s4.setFwLevel l 0
    else if low then (if 10 ≤ n then s4.setFwLevel (l - 1) 1 else s4.setFwLevel l (n + 1))
    else s4.setFwLevel l 0
  let s6 := s5.applyLevel
  s6.reportLevel (s6.fldOf aReefStat 10 2)

/-- A tile at 105 °C forces level 2 or higher; below 100 °C everywhere the firmware's level applies again (R382). -/
def State.emergency (s : State) : State :=
  let due := fun (s : State) => ({ s with clk := { s.clk with emergDue := true } } : State)
  if !s.bitOf aReefStat 9 then
    if tempCode 105 ≤ s.hottest then
      let s1 := if s.level < 2 then s.setFld aReefStat 10 2 3 else s
      due (s1.setBit aReefStat 9 true).applyLevel
    else s
  else if s.hottest < tempCode 100 then due (s.setBit aReefStat 9 false).applyLevel
  else s

/-- A reefing hold step (R76, R380): at level 1 or 2 every cluster and array of every released region is held for a
cycle. -/
def State.reefHold (s : State) : State :=
  if s.level = 1 ∨ s.level = 2 then
    s.forEach ((List.range 16).filter fun m => (s.rgn m).released) fun s m =>
      (s.forEach (s.members m) fun s tc => s.hold tc.1 tc.2 11).forEach ((tilesOf m).filter s.arrOn) fun s t => s.arrHoldAll t 6
  else s

/- Aging (R384, R390). -/

/-- The hourly measurement of a tile's aging monitor. -/
def State.agingMeasure (s : State) (t ppm : Nat) : State :=
  if t < 64 then
    let p := min ppm 65535
    let r := s.reg (aTileAge t)
    let r1 := putFld (putFld r 0 16 p) 16 16 (satAdd 16 (fld r 16 16) 1)
    let warn := bit r 32 || decide (40000 < p)
    let limit := bit r 33 || decide (60000 < p)
    let s1 := s.setReg (aTileAge t) (putFld (putFld r1 32 1 (b2n warn)) 33 1 (b2n limit))
    let mv := s1.fldOf aPwrEst 32 16
    let s2 := if 30000 < p ∧ mv < 780 then s1.setFld aPwrEst 32 16 (min 780 (mv + 5)) else s1
    let s3 := if limit && !bit r 33 then
        let all := (List.range 132).map (fun c => Resource.cluster t c) ++ (List.range 16).map (fun b => Resource.bank t b) ++
          [Resource.array t]
        { s2 with health := { s2.health with suspects := s2.health.suspects ++ all } }
      else s2
    if warn && !bit r 32 then s3.event 8 0xFF (bytesOfNat 1 t ++ zeros 1 ++ bytesOfNat 2 p) else s3
  else s

/-- The fine code of DCO `k` is to move: enabled, UNSTABLE_EVT clear, within 10 % of the range from an end (R385; log 109). -/
def State.retrims (s : State) (k : Nat) : Bool :=
  s.bitOf (aDcoCfg k) 0 && !s.bitOf (aDcoStat k) 1 && decide (12000 ≤ (s.fine k).natAbs)

/-- One step of the coarse setting toward the end that the fine code is near, and the fine code back by as much. -/
def State.retrim (s : State) (k : Nat) : State :=
  if s.retrims k then
    let d : Int := if s.fine k < 0 then -1 else 1
    (s.setCoarse k (s.coarse k + d)).setFine k (s.fine k - d * Config.coarseStep k)
  else s

/-- The retrim of every 10 s, of each DCO (R385). -/
def State.dcoRetrim (s : State) : State := s.forEach (List.range 8) State.retrim

/- CLOCK_SET (R363, R364, R372). -/

/-- The ratio limits of R363 on dividers given as twice their value. -/
def ratiosOk (l : List Nat) : Bool :=
  decide (2 * l.getD 0 0 ≤ l.getD 1 0 ∧ 2 * l.getD 1 0 ≤ l.getD 2 0 ∧ 2 * l.getD 1 0 ≤ l.getD 3 0)

end Sys2Proof.Machine
end

