-- ==== Sys2Proof/Machine/ClusterStep.lean ====
section
/-! DEFINITION. What follows from a cluster's step outside the cluster: the tick and the slip of a period (R82, R86), the
refresh grant (R122), compare records (R354), halts, triggers, capture and trace. -/

namespace Sys2Proof.Machine

/- Refresh grants (R122). -/

/-- The window of ecycle `k` has begun for every cluster of the region. -/
def State.winBegun (s : State) (m k : Nat) : Bool :=
  let (c, q) := (s.sched m).place k (s.fldOf (aRgnRefwin m) 0 12)
  (s.members m).all fun tc => s.reached tc.1 tc.2 c q

/-- A cluster has completed the last step of the window of ecycle `k`. -/
def State.winEnded (s : State) (m k : Nat) : Bool :=
  let (c, q) := (s.sched m).place k (s.fldOf (aRgnRefwin m) 0 12 + 8 * s.fldOf (aRgnRefwin m) 12 9 - 1)
  (s.members m).any fun tc => s.passed tc.1 tc.2 c q

/-- The windows that have begun for every cluster among those of the ecycles about period `c`. -/
def State.grantWindows (s : State) (m c : Nat) : List Nat :=
  if s.fldOf (aRgnRefwin m) 12 9 = 0 ∨ !(s.rgn m).released then [] else [c - 1, c].eraseDups.filter (s.winBegun m)

/-- The grant of a region brought up to date: at a window's beginning every controller begins its pending refreshes; the
grant stays open until a cluster has completed the window (log 24). `before` lists the windows begun up to now. -/
def State.regrant (s : State) (m c : Nat) (before : List Nat) : State :=
  let now := s.grantWindows m c
  let opens := now.any fun k => !before.contains k
  let s1 := s.setRgn m { s.rgn m with grant := now.any fun k => !s.winEnded m k }
  if opens then s1.grantOpens else s1

/- Compare records (R354). -/

/-- A speed bridge that the committed image of its region names. -/
def State.bridgeConfigured (s : State) (m : Nat) : Bool := s.claim 4 m == 16 + m

/-- Intervals of 2^LOG2K ecycles. -/
def State.ketchK (s : State) : Nat := 2 ^ min 16 (s.fldOf aKetchCfg 0 5)

/-- The device forms compare records for a region: it is a member of a pair, and the region runs. -/
def State.comparing (s : State) (m : Nat) : Bool :=
  s.fldOf aCascStat 38 2 != 0 && s.bridgeConfigured m && s.rgnState m == 2

/-- The running CRCs of the interval of ecycle `k`, changed. -/
def State.compareTake (s : State) (m k : Nat) (f : CompareAcc → CompareAcc) : State :=
  let r := s.rgn m
  let base := (s.joinEcy m + k) / s.ketchK * s.ketchK
  let old := (r.cmp.find? fun x => x.base == base).getD { base, outCrc := 0xFFFF_FFFF, inCrc := 0xFFFF_FFFF }
  s.setRgn m { r with cmp := (r.cmp.filter fun x => x.base != base) ++ [f old] }

/-- The ecycle of a word of generation `gen` that a cluster of period `c` sends or consumes: c, or c - 1 (R41). -/
def ecycleOf (c : Nat) (gen : Bool) : Nat := if parity c = gen then c else c - 1

/-- Words a step sent on the bridge, and the first consumption of an input word, taken into the CRCs. -/
def State.compareStep (s old : State) (x : CluStep) : State :=
  if !s.comparing x.m then s
  else
    let n := (old.br x.m).down.length
    let s1 := match ((s.br x.m).down.drop n).head? with
      | some w => s.compareTake x.m (ecycleOf x.c w.gen) fun a => { a with outCrc := crc32cWord a.outCrc w.data }
      | none => s
    let u := (old.clu (cluKey x.t x.pc)).brg
    match u with
    | [] => s1
    | w :: _ =>
      let k := ecycleOf x.c w.gen
      if (s.clu (cluKey x.t x.pc)).brg.length < u.length ∧ (s1.rgn x.m).inNext ≤ k then
        let s2 := s1.compareTake x.m k fun a => { a with inCrc := crc32cWord a.inCrc w.data }
        s2.setRgn x.m { s2.rgn x.m with inNext := k + 1 }
      else s1

/- The step. -/

/-- A memory-model write that a step issued goes to the data source of the tile (R451). -/
def State.traceIssue (s old : State) (x : CluStep) : State :=
  let k := cluKey x.t x.pc
  if ((old.clu k).mm.filter (·.write)).length < ((s.clu k).mm.filter (·.write)).length then
    match (s.clu k).mm.getLast? with
    | some a => if a.phase == .waiting then s.ttData x.t true false x.pc a.addr (bytesOfNat a.size a.data.toNat) else s
    | none => s
  else s

/-- The first cluster of a region has performed step 0 of period `c`: the home tile sends the tick that requests the
input word of ecycle c + LEAD, and a paced region takes its slip (R82, R86). That a period begins with the step 0 of the
first cluster of any tile of the region, the home tile's or another's, is the model's reading (DEDUCED, log 94). -/
def State.beginPeriod (s : State) (m c : Nat) : State :=
  let r := s.rgn m
  if r.ticked ≤ c then
    let s1 := (s.setRgn m { r with ticked := c + 1 }).sendTick m (c + s.leadOf m)
    if (s.sched m).rt then s1.slip m c else s1
  else s

/-- A cluster has come to step 0 of period `c` as the first of its region (R438, R443). -/
def State.firstAt (old : State) (m c : Nat) : Bool := decide (old.fastest m < c)

/-- Everything that follows a performed step. -/
def State.stepEffects (s old : State) (x : CluStep) : State :=
  let s1 := if x.p = 0 then s.beginPeriod x.m x.c else s
  let s2 := s1.setFld (aRgnEcycle x.m) 0 48 (s1.slowest x.m)
  let s3 := s2.regrant x.m (s2.slowest x.m) (old.grantWindows x.m (s2.slowest x.m))
  let s4 := (s3.compareStep old x).compareTriggers x
  let next := s4.periodOf x.t x.pc
  let s5 := if s4.stepOf x.t x.pc = 0 ∧ old.firstAt x.m next then s4.ecycleTriggers x.m next else s4
  (((s5.traceIssue old x).capStep x).capFlush x.t).settleHalt x.m

/-- A CLK_STEP cycle of cluster `c` of tile `t`, by name (R75): clusters outside the committed usage table take no
steps, and a closed yard gives none (R367; log 19). -/
def State.clusterStep (s : State) (t c : Nat) : State :=
  let m := regionOfTile t
  let pc := s.phys t c
  if !((s.rgn m).usage.clusters.contains (t, c)) || !s.clocked (cluLeaf t pc) then s
  else
    let r := s.attempt m t pc
    match r.2 with
    | some x => r.1.stepEffects s x
    | none => r.1.settleHalt m

/-- A step of a cluster stays held for 2^HOLD_LOG2 cycles: HOLD_TIMEOUT sets and the fault is raised (R64, R292). Cycles
of a halted, fenced or faulted region are not counted. -/
def State.holdTimeout (s : State) (t c : Nat) : State :=
  let m := regionOfTile t
  let pc := s.phys t c
  let st := s.reg (aCluStatus t pc)
  if !((s.rgn m).usage.clusters.contains (t, c)) || !bit st 12 || s.halted m || s.fenced m || s.rgnState m == 5 || bit st 17
  then s
  else (s.setBit (aCluStatus t pc) 17 true).raise 1 m t c (BitVec.ofNat 64 (fld st 13 4 + 16 * fld st 0 12)) false

end Sys2Proof.Machine
end

