-- ==== Sys2Proof/Machine/ArrayStep.lean ====
section
/-! DEFINITION. What follows from a stream-array step, a stream port's access and a memory-model return outside the array
and the unit: breakpoints (R444), halts (R439) and Telltale trace (R450, R451). -/

namespace Sys2Proof.Machine

/-- An array's step in frame `frame` shown to the flow source, the breakpoints and the halt (R439, R444, R450). -/
def arrayEffects (t frame : Nat) (r : State × Option ArrStep) : State :=
  let s1 := match r.2 with
    | none => r.1
    | some x =>
      let s1 := match x.branch with
        | some b => r.1.ttBranch x.t x.thread b
        | none => r.1
      let s2 := match x.ind with
        | some e => s1.ttInd x.t x.thread e
        | none => s1
      s2.arrayBreak x frame
  s1.settleHalt (regionOfTile t)

/-- A switch step of a thread, in a tile whose array has its clock (R150, R367). -/
def State.arraySwitch (s : State) (t th : Nat) : State :=
  if s.clocked (leafYard t 9) then arrayEffects t ((s.arr t).thread th).frame (s.switchStep t th) else s

/-- A run step of a thread, in a tile whose array has its clock (R137, R367). -/
def State.arrayRun (s : State) (t th : Nat) : State :=
  if s.clocked (leafYard t 9) then arrayEffects t ((s.arr t).thread th).frame (s.runStep t th) else s

/-- The elements of a port that have their data in `now` and had none in `old`, as address, code and value. -/
def newlyRead (old now : List PortWord) : List (Nat × Nat × W32) :=
  (List.range now.length).filterMap fun i =>
    match now[i]? with
    | some w => match w.val, (old[i]?).bind (·.val) with
      | some v, none => some (w.addr, w.elem, v)
      | _, _ => none
    | none => none

/-- Elements that port `n` has received since `old` go to the data source of the tile (R451). -/
def State.traceFilled (s old : State) (t n : Nat) : State :=
  s.forEach (newlyRead ((old.arr t).port n).fifo ((s.arr t).port n).fifo) fun s x =>
    s.ttData t false true n x.1 (bytesOfNat (elemSize x.2.1) x.2.2.toNat)

/-- A read port's fetch (R160). -/
def State.arrayFetch (s : State) (t n : Nat) : State := (s.portFetch t n).traceFilled s t n

/-- A write port's store (R160), shown to the data source as it is issued (R451). -/
def State.arrayStore (s : State) (t n : Nat) : State :=
  let s1 := s.portStore t n
  match ((s.arr t).port n).fifo with
  | w :: _ =>
    if !((s.arr t).port n).storing && ((s1.arr t).port n).storing then
      s1.ttData t true true n w.addr (bytesOfNat (elemSize w.elem) (w.val.getD 0).toNat)
    else s1
  | [] => s1

/-- The outcome of a stream access (R160, R223). -/
def State.arrayOutcome (s : State) (t n addr len : Nat) (write ok : Bool) (data : List Byte) : State :=
  (s.streamOutcome t n addr len write ok data).traceFilled s t n

/-- The unit of tile `t` presents a cluster's next access, while it has its clock (R173, R367). -/
def State.unitPresent (s : State) (t c : Nat) : State :=
  if s.clocked (leafYard t 10) then s.mmPresent t (s.phys t c) else s

/-- A read result enters MMR (R53), and the data source of the tile shows it (R451). -/
def State.unitReturn (s : State) (t c : Nat) : State :=
  let pc := s.phys t c
  let s1 := s.mmrReturn t pc
  if (s.clu (cluKey t pc)).mmr.length < (s1.clu (cluKey t pc)).mmr.length then
    match nextReturn [] (s.clu (cluKey t pc)).mm with
    | some (_, a, _) =>
      if a.phase == .done then s1.ttData t false false pc a.addr (bytesOfNat a.size a.data.toNat) else s1
    | none => s1
  else s1

/-- A grant of a scratchpad bank (R175), with the outcome handed to its requester (R53, R160, R219). -/
def State.serveBank (s : State) (t b : Nat) : State :=
  if !s.clocked (leafYard t 12) then s
  else
    let r := s.bankGrant t b
    match r.2 with
    | none => r.1
    | some d =>
      match d.src with
      | .mm pc => r.1.mmOutcome t pc d.addr d.write d.ok (BitVec.ofNat 64 (natOfBytes d.data))
      | .sa n => r.1.arrayOutcome t n d.addr d.data.length d.write d.ok d.data
      | .noc q => r.1.answer q stOk d.data (!d.ok)
      | .dbg q => r.1.answer q stOk d.data (!d.ok)

end Sys2Proof.Machine
end

