-- ==== Sys2Proof/Machine/Access.lean ====
section
/-! DEFINITION. Reads and writes of the internal map at its targets: which sizes a target accepts (R218), whom it serves
(R209), which writes it refuses (R62, R95, R148, R179, R189, R204, R237, R244, R307), what a register's write does. -/

namespace Sys2Proof.Machine

/-- JTAG may use what bit `n` of the unlock SCOPE opens: always before FIELD state, then under a token (R425, R431). -/
def State.jtagScope (s : State) (n : Nat) : Bool :=
  decide (s.sec.lifecycle < 2) || (s.sec.unlocked && decide (s.sec.scope / 2 ^ n % 2 = 1))

/- Names and places (R60). -/

/-- Where an address of a cluster's memories or configuration block is served: under the name of a replaced cluster, by
its spare. -/
def State.translate (s : State) (a : Nat) : Nat :=
  match placeOf s.part a with
  | .cluster m t c off => if c < 128 ∧ s.phys t c ≠ c then m.spare + m.per * (4 * t + (s.phys t c - 128)) + off else a
  | .tileRegs t o =>
    if 0x8000 ≤ o ∧ o < 0xA000 then cluReg t (s.phys t ((o - 0x8000) / 0x40)) (o % 0x40) else a
  | _ => a

/- Sizes (R61, R92, R147, R218, R243). -/

/-- A naturally aligned access. -/
def natural (a n : Nat) : Bool :=
  (n == 1 || n == 2 || n == 4 || n == 8 || n == 16 || n == 32 || n == 64) && a % n == 0

/-- Width of an access that the array memory at an offset takes. -/
def arrayWidth (o : Nat) : Nat :=
  if o < 0x1_8800 then 8 else if o < 0x1_9000 then 1 else if o < 0x1_A000 then 8 else 4

/-- The target accepts an access of `n` bytes at `a`. -/
def sizeOk (p : Part) (a n : Nat) : Bool :=
  match placeOf p a with
  | .cluster m _ _ _ => natural a n && decide (m.width ≤ n)
  | .array _ o => natural a n && n == arrayWidth o
  | .glueFrame _ _ => natural a n && decide (8 ≤ n)
  | .serial => natural a n && (n == 4 || n == 8)
  | .window _ => natural a n && (n == 4 || n == 8)
  | .tileRegs _ _ => natural a n && n == 8
  | .ownership => natural a n && n == 8
  | .ioRegs => natural a n && (n == 8 || (n == 4 && (match ioRow (a / 8 * 8) with
      | some r => r.size == 4
      | none => true)))
  | _ => true

/- Registers. -/

/-- The fields of a register that the hardware shows live: outstanding tags (R237), transactions held (R203), a pin's
freeze (R264), the slip of an unpaced region as 0 (R84). -/
def State.liveReg (s : State) (a : Nat) : W64 :=
  let v := s.reg a
  if aNocFence 0 ≤ a ∧ a < aNocFence 16 then putFld v 16 13 (s.outTags ((a - aNocFence 0) / 8))
  else if 0x15_0000_0000 ≤ a ∧ a < 0x15_0400_0000 ∧ a % 0x10_0000 = 0xE118 then
    putFld v 0 6 (s.chan (tileChannel ((a - 0x15_0000_0000) / 0x10_0000))).inSlots
  else if aGpio 0 0 ≤ a ∧ a < aGpio 8 0 ∧ 0x100 ≤ a % 0x200 then
    putFld v 63 1 (b2n (s.pinFrozen (32 * ((a - aGpio 0 0) / 0x200) + (a % 0x200 - 0x100) / 8)))
  else if 0x15_0000_0000 ≤ a ∧ a < 0x15_0400_0000 ∧ a % 0x10_0000 = 0xC018 then
    let m := regionOfTile ((a - 0x15_0000_0000) / 0x10_0000)
    if a = aRgnSlip m ∧ (s.sched m).rt = false then 0 else v
  else v

/-- The register behind an address of the GPIO block's secure alias: the same one but for IGN (R262, R266). -/
def unalias (a : Nat) : Nat :=
  if 0x15_1002_8000 ≤ a ∧ a < 0x15_1002_9000 ∧ a % 0x200 ≠ 0x1C then a - 0x8000 else a

/-- The writer may write a register of this row, which lies at `a` (R9, R66, R148, R209). -/
def State.mayWrite (s : State) (r : RegRow) (o : Origin) (a : Nat) : Bool :=
  match r.writers with
  | .reach => true
  | .fencedOrHalted => s.heldRegion (regionOfTile ((a - 0x15_0000_0000) / 0x10_0000))
  | .mgmt => o == .mgmt
  | .mgmtOrJtag n => o == .mgmt || (o == .jtag && s.jtagScope n)
  | .nobody => false

/-- A slot-table write outside commit is performed (R95). `a` is the address of either half of the entry. -/
def State.slotWritable (s : State) (a : Nat) (v : W64) : Bool :=
  let hi := s.reg (a / 16 * 16 + 8)
  let e := slotAt (a % 0x10_0000 - 0x4_0000) hi
  let m := e.owner
  e.half != b2n (s.bitOf (aRgnRig m) 0) && (a % 16 == 0 || fld v 1 4 == m) && s.heldRegion m &&
  decide (s.fldOf (aRgnRig m) 2 48 < s.fldOf (aRgnEcycle m) 0 48)

/-- A glue frame write outside commit is performed: its region is fenced with GSR0 asserted (R244). -/
def State.frameWritable (s : State) (a : Nat) : Bool := s.glueFenced ((a - 0x14_0000_0000) / 2 ^ 24)

/-- The fence point of a region: requests that have reached its endpoints, or a controller of its granules, by then are
performed as usual (R234). -/
def State.noteBefore (s : State) (m : Nat) : State :=
  let here := s.noc.arrived.filterMap fun p => match p with
    | .req q =>
      if q.dstDev = s.pos ∧ q.dstNode < 64 ∧ ((q.dstPort < 2 ∧ regionOfTile q.dstNode = m) ∨ q.dstPort = 2) then some (m, q) else none
    | _ => none
  { s with noc := { s.noc with before := s.noc.before.filter (·.1 != m) ++ here } }

/-- NOC_FENCE of a region written (R234, R236, R237): setting FENCE is the fence point, LATE clears either way. -/
def State.writeFence (s : State) (m : Nat) (on : Bool) : State :=
  if on then
    if s.bitOf (aNocFence m) 0 then s.setBit (aNocFence m) 4 false else (s.noteBefore m).setReg (aNocFence m) 1
  else (s.setReg (aNocFence m) 0).setReg (aCfgRgn m) (putFld (s.reg (aCfgRgn m)) 4 3 0)

/-- A masked write through the GPIO block: register 0 to 3 of a bank (R266). -/
def State.gpioMasked (s : State) (o : Origin) (a : Nat) (v : W32) : State :=
  let secure := decide (0x15_1002_8000 ≤ a)
  let b := (a - 0x15_1002_0000) % 0x8000 / 0x200
  let r := a % 0x200 / 4
  s.maskedWrite o secure (decide (2 ≤ r)) b (16 * (r % 2)) v

/-- CLU_REMAP of a spare written: VALID changes only while the tile's region is fenced or its Ketch member is
OUT_OF_SERVICE, else it stays as it is (R60; log 96). -/
def State.writeRemap (s : State) (t a : Nat) (v : W64) : State :=
  let free := s.fenced (regionOfTile t) || s.fldOf aKetchStat 0 3 == 3
  let v1 := if free then v else putFld v 0 1 (s.fldOf a 0 1)
  (s.setReg a v1).mapNote t (s.sparesFree t)

/-- What a performed write of one register does. -/
def State.regEffect (s : State) (r : RegRow) (o : Origin) (a : Nat) (v : W64) : State :=
  let plain := s.setReg a (r.written (s.reg a) v)
  let io := a - 0x15_1000_0000
  if a < 0x15_0400_0000 then
    let t := (a - 0x15_0000_0000) / 0x10_0000
    match (a - 0x15_0000_0000) % 0x10_0000 with
    | 0xA100 | 0xA108 | 0xA110 | 0xA118 => s.writeRemap t a (r.written (s.reg a) v)
    | 0xE008 => (s.spPwr o t v).1
    | 0xF100 => s.capConfig t v
    | 0xF300 => s.ttConfig t v
    | _ => plain
  else if 0x1_0000 ≤ io ∧ io < 0x1_0040 then s.gclkSel ((io - 0x1_0000) / 8) v
  else if 0x1_0100 ≤ io ∧ io < 0x1_0180 ∧ io % 16 = 0 then s.dcoCfg ((io - 0x1_0100) / 16) v
  else if 0x2_0000 ≤ io ∧ io < 0x2_9000 then
    if io % 0x200 < 0x10 then s.gpioMasked o a (v.setWidth 32)
    else if 0x100 ≤ io % 0x200 then
      s.setPinCfg (32 * ((io - 0x2_0000) / 0x200) + (io % 0x200 - 0x100) / 8) (r.written (s.reg a) v)
    else plain
  else if 0x4_0000 ≤ io ∧ io < 0x4_0080 then s.writeFence ((io - 0x4_0000) / 8) (bit v 0)
  else if io = 0x8_0010 then
    if bit v 12 then s.yardCloseReq (fld v 0 12) else s.yardOpenReq (fld v 0 12)
  else if 0xA_0000 ≤ io ∧ io < 0xA_0080 then s.dbgHaltWrite ((io - 0xA_0000) / 8) v
  else plain

/-- A write of one register: performed or not, with the status it receives; a reserved offset ignores it (R10). -/
def State.writeReg (s : State) (o : Origin) (a : Nat) (v : W64) : State × Nat :=
  let a := unalias' a
  match regRow a with
  | none => (s, stOk)
  | some r =>
    if !s.mayWrite r o a then (s, stDenied)
    else if 0x15_0000_0000 ≤ a ∧ a < 0x15_0400_0000 ∧ 0x4_0000 ≤ a % 0x10_0000 ∧ !s.slotWritable a v then
      (s, stDenied)
    else if aDcoCfg 0 ≤ a ∧ a < aDcoCfg 8 ∧ a % 16 = 0 ∧ !dcoInRange v then (s, stDenied)
    else (s.regEffect r o a v, stOk)
where
  /-- The masked-write registers of the alias keep their own address, which names the view. -/
  unalias' (a : Nat) : Nat := if a % 0x200 < 0x10 then a else unalias a

/-- A register read, `n` bytes (R9): live fields as they stand; of a reserved offset, zeros. -/
def State.readReg (s : State) (o : Origin) (a : Nat) : W64 :=
  let b := unalias a
  let bank := (b - aGpio 0 0) / 0x200
  let r := b % 0x200
  if aGpio 0 0 ≤ b ∧ b < aGpio 8 0 ∧ o = .host then
    -- the host reads every field of a SECURE pin as 0 (R266)
    if 0x10 ≤ r ∧ r < 0x1C then
      (List.range 32).foldl (fun v i => if s.pinOwner (32 * bank + i) = 5 then putFld v i 1 0 else v) (s.liveReg b)
    else if 0x100 ≤ r ∧ s.pinOwner (32 * bank + (r - 0x100) / 8) = 5 then 0
    else s.liveReg b
  else s.liveReg b

/- Whom a target serves (R209). -/

/-- The requester reaches a place. -/
def reaches (o : Origin) (srcNode : Nat) (write : Bool) : Place → Bool
  | .dram => true
  | .scratchpad t => match o with
    | .region _ => srcNode == t
    | .mgmt | .config | .jtag => true
    | _ => false
  | .secure => o == .mgmt
  | .flash => (o == .mgmt || o == .config) && !write
  | .window _ => o == .mgmt || o == .config || o == .jtag || o == .host
  | _ => o == .mgmt || o == .config || o == .jtag

/-- A write that its place refuses whatever its requester's reach. -/
def State.refuses (s : State) (o : Origin) (a : Nat) : Place → Bool
  | .cluster _ t _ _ => !s.heldRegion (regionOfTile t)
  | .array t _ => !s.heldRegion (regionOfTile t)
  | .glueFrame _ _ => !s.frameWritable a
  | .ownership => o != .mgmt
  | _ => false

/-- Status of an access at its target, before what a register's own rule says (R221): the address, then the request's
form, then the rights. -/
def State.judge (s : State) (o : Origin) (srcNode : Nat) (write : Bool) (a n : Nat) : Nat :=
  let p := placeOf s.part a
  if p = .nowhere then stDecode
  else if !sizeOk s.part a n then stMalformed
  else if !reaches o srcNode write p || (write && s.refuses o a p) then stDenied
  else stOk

/- Performing an access. -/

/-- An 8-byte access at an I/O die address covers two 32-bit registers (R218). -/
def twoRegs (a : Nat) : Bool := match ioRow a with
  | some r => r.size == 4
  | none => false

/-- A performed read outside DRAM and scratchpads: state, status, data, poison. -/
def State.readAt (s : State) (o : Origin) (a n : Nat) : State × Nat × List Byte × Bool :=
  let b := s.translate a
  match placeOf s.part b with
  | .tileRegs _ _ => (s, stOk, bytesOfNat 8 (s.readReg o b).toNat, false)
  | .ioRegs =>
    (s, stOk, if n = 8 ∧ twoRegs b = true then bytesOfNat 4 (s.readReg o b).toNat ++ bytesOfNat 4 (s.readReg o (b + 4)).toNat
      else bytesOfNat n (s.readReg o b).toNat, false)
  -- the user bus port of its region takes it before (R261)
  | .window _ => (s, stDenied, [], false)
  | _ => (s, stOk, s.bytes b n, s.eccMax b n == 2)

/-- A performed write outside DRAM and scratchpads: state and status. -/
def State.writeAt (s : State) (o : Origin) (a : Nat) (d : List Byte) (poison : Bool) : State × Nat :=
  let b := s.translate a
  let v : W64 := BitVec.ofNat 64 (natOfBytes d)
  match placeOf s.part b with
  | .tileRegs _ _ => s.writeReg o b v
  | .ioRegs =>
    if d.length = 8 ∧ twoRegs b = true then
      let r := s.writeReg o b (v &&& bits 31 0)
      let q := r.1.writeReg o (b + 4) (v >>> 32)
      (q.1, max r.2 q.2)
    else s.writeReg o b v
  | .ownership => (s.putMem b (d.map (· &&& 0x1F)), stOk)
  | .glueFrame _ _ => (s.putMem b d, stOk)
  | .window _ => (s, stDenied)
  | .flash => (s, stDenied)
  | _ => (s.store b d poison, stOk)

/-- An access judged and, where it is served, performed: state, status, data and poison. -/
def State.access (s : State) (o : Origin) (srcNode : Nat) (write : Bool) (a n : Nat) (d : List Byte) (poison : Bool) :
    State × Nat × List Byte × Bool :=
  let st := s.judge o srcNode write a n
  if st ≠ stOk then (s, st, [], false)
  else if write then
    let r := s.writeAt o a d poison
    (r.1, r.2, [], false)
  else s.readAt o a n

end Sys2Proof.Machine
end

