-- ==== Sys2Proof/Machine/Ketch.lean ====
section
/-! DEFINITION. Ketch pairs (R352 to R358): roles, compare records and their outcomes, fault notices, silence. -/

namespace Sys2Proof.Machine

/-- ROLE of the device's member: 0 none, 1 ACTIVE, 2 STANDBY, 3 OUT_OF_SERVICE, 4 HALTED, 5 RESYNC (R361). -/
def State.role (s : State) : Nat := s.fldOf aKetchStat 0 3

/-- MEMBER of CASC_STAT: 0 none, 1 A, 2 B. -/
def State.member (s : State) : Nat := s.fldOf aCascStat 38 2

/-- The device is the master of its cascade, or of its member of a pair (R337). -/
def State.memberMaster (s : State) : Bool := s.bitOf aCascStat 4

/-- The device is the master of its cascade or pair: strapped so, and not named the master of member B (R337, R352). -/
def State.isMaster (s : State) : Bool := s.memberMaster && s.member != 2

/-- CFWD and CSYNC_OUT are driven: by the master, as long as it has HREFCLK; never by a follower, nor by the master of member B
once CASCADE_FORM has named it so (R338, R339, R352). -/
def State.drivesCascade (s : State) : Bool := s.isMaster && s.pwr.href

/-- A message sent over Aelbel management. -/
def State.mgmtSend (s : State) (m : MgmtMsg) : State := { s with casc := { s.casc with outbox := s.casc.outbox ++ [m] } }

/-- A role taken: KETCH_ACT follows it at the master of the member, to which another device passes the change (R356,
R357); the change is reported with the region and interval that caused it (R405). -/
def State.setRole (s : State) (r region base : Nat) : State :=
  let old := s.role
  if old = r then s
  else
    let s1 := s.setReg aKetchStat (putFld (putFld (s.reg aKetchStat) 0 3 r) 3 1 (b2n (s.memberMaster && r == 1)))
    let s2 := s1.event 0xC 0xFF (bytesOfNat 1 old ++ bytesOfNat 1 r ++ bytesOfNat 1 region ++ zeros 5 ++ bytesOfNat 8 base)
    if s.memberMaster then s2 else s2.mgmtSend (.role r)

/-- The device's own member becomes OUT_OF_SERVICE. -/
def State.ownOut (s : State) (region base : Nat) : State := if s.role = 0 then s else s.setRole 3 region base

/-- The twin's member becomes OUT_OF_SERVICE: this one becomes active where it stood by (R355). -/
def State.twinGoesOut (s : State) (region base : Nat) : State :=
  let s1 : State := { s with ketch := { s.ketch with twinOut := true } }
  if s.role = 2 then s1.setRole 1 region base else s1

/-- A record as it is sent: REGION, FLAGS, ECY_BASE, OUT_CRC, IN_CRC (R354). -/
def State.recordBytes (s : State) (region base outCrc inCrc : Nat) (notice : Bool) : List Byte :=
  bytesOfNat 1 region ++ bytesOfNat 1 (b2n (s.ketch.fault || notice) + 2 * b2n (s.role == 1) + 4 * b2n notice) ++
  bytesOfNat 6 base ++ bytesOfNat 4 outCrc ++ bytesOfNat 4 inCrc

def recRegion (r : List Byte) : Nat := leNum r 0 1
def recFlags (r : List Byte) : Nat := leNum r 1 1
def recBase (r : List Byte) : Nat := leNum r 2 6

/-- Ketch link of the device. -/
def State.ketchLane (s : State) : Nat := s.fldOf aKetchCfg 16 8

/-- Every region of the link group of `m` becomes FAULTED where it is configured (R130). -/
def State.faultGroup (s : State) (m : Nat) : State :=
  s.forEach (s.group m) fun s n =>
    if s.rgnState n = 0 then s
    else (s.setFld (aCfgRgn n) 0 3 5).setRgn n { s.rgn n with loaded := false }

/-- Outcome of comparing a device's own record with its twin's for the same region and interval (R355). -/
def State.compareRecords (s : State) (own twin : List Byte) : State :=
  let m := recRegion own
  let base := recBase own
  let quiet := s.role == 3 || s.ketch.twinOut
  let fo := recFlags own % 2
  let ft := recFlags twin % 2
  if own.drop 8 = twin.drop 8 then s.count aKetchStat 16 32
  else if own.drop 12 ≠ twin.drop 12 then
    let s1 := s.count aKetchStat 48 8
    if quiet then s1
    else
      let s2 := s1.event 0xD 0xFF (bytesOfNat 1 m ++ zeros 7 ++ bytesOfNat 8 base)
      if s.role = 2 then s2.ownOut m base else if s.role = 1 then { s2 with ketch := { s2.ketch with twinOut := true } } else s2
  else if fo ≠ ft then
    if quiet then s else if fo = 1 then s.ownOut m base else s.twinGoesOut m base
  else
    let s1 := s.count aKetchStat 56 8
    if quiet then s1 else (s1.faultGroup m).setRole 4 m base

/-- Compares and forgets every pair of records of a region that are both present. -/
def State.comparePairs (s : State) (m : Nat) : State :=
  (s.rgn m).cmpOwn.foldl (fun s o =>
    match takeFirst (fun t => recBase t == recBase o) (s.rgn m).cmpTwin with
    | some (t, rest) =>
      (s.setRgn m { s.rgn m with cmpOwn := (s.rgn m).cmpOwn.filter (· != o), cmpTwin := rest }).compareRecords o t
    | none => s) s

/-- Every cluster of the region has run every step of the ecycles below group ecycle `g` (R65, R68). -/
def State.ecyclesDone (s : State) (m g : Nat) : Bool :=
  decide (g + b2n (decide (0 < (s.sched m).win)) ≤ s.joinEcy m + s.slowest m)

/-- An interval of K ecycles is complete: its record goes to the twin, and waits for the twin's (R354). -/
def State.compareSend (s : State) (m : Nat) : State :=
  let r := s.rgn m
  let base := r.cmpBase
  if !s.comparing m || s.ketch.suspended || !s.ecyclesDone m (base + s.ketchK) then s
  else
    let acc := (r.cmp.find? fun x => x.base == base).getD { base, outCrc := 0xFFFF_FFFF, inCrc := 0xFFFF_FFFF }
    let own := s.recordBytes m base (acc.outCrc ^^^ 0xFFFF_FFFF) (acc.inCrc ^^^ 0xFFFF_FFFF) false
    let s1 := s.setRgn m { r with cmpBase := base + s.ketchK, cmp := r.cmp.filter fun x => decide (base < x.base),
                                  cmpOwn := r.cmpOwn ++ [own] }
    (s1.linkMsg s.ketchLane 1 own).comparePairs m

/-- A message of a class that a link has received is taken from its place, which becomes free (R318, R319). -/
def State.takeMsg (s : State) (n cls : Nat) (payload : List Byte) : State :=
  let l := s.link n
  match takeFirst (fun (e : TxEntry) => e.cls == cls && e.bytes == payload) l.inbox with
  | some (_, rest) => (s.setLink n { l with inbox := rest }).freeOwn n (clsKey cls 0) 1
  | none => s

/-- Traffic of the twin has arrived: contact stands, and after a silence the member that became active in it is out when
both are (R358). -/
def State.contact (s : State) (region base : Nat) (twinActive : Bool) : State :=
  let s1 := s.setBit aKetchStat 4 true
  let s2 : State := { s1 with ketch := { s1.ketch with suspended := false, silent := false } }
  if !s.ketch.suspended ∨ !twinActive ∨ s.role ≠ 1 then s2
  else if s.ketch.silent then s2.ownOut region base
  else { s2 with ketch := { s2.ketch with twinOut := true } }

/-- A fault notice: the sender's member is OUT_OF_SERVICE (R356). -/
def State.faultNotice (s : State) (r : List Byte) : State :=
  if r.length ≠ 16 ∨ s.role = 0 then s
  else
    ((s.takeMsg s.ketchLane 1 r).contact (recRegion r) (recBase r) (recFlags r / 2 % 2 == 1)).twinGoesOut
      (recRegion r) (recBase r)

/-- The twin's compare record (R355); one with NOTICE set is not compared. -/
def State.twinRecord (s : State) (r : List Byte) : State :=
  if r.length ≠ 16 ∨ s.role = 0 ∨ 16 ≤ recRegion r then s
  else if recFlags r / 4 % 2 = 1 then s.faultNotice r
  else
    let m := recRegion r
    let s1 := (s.takeMsg s.ketchLane 1 r).contact m (recBase r) (recFlags r / 2 % 2 == 1)
    (s1.setRgn m { s1.rgn m with cmpTwin := (s1.rgn m).cmpTwin ++ [r] }).comparePairs m

/-- An internal fault of this device: its member is out at once, and the twin has a notice that goes ahead of every
record still queued (R129, R355, R356). -/
def State.internalFault (s : State) (m ecycle : Nat) : State :=
  if s.role = 0 then s
  else
    let s1 := ({ s with ketch := { s.ketch with fault := true } }).ownOut m ecycle
    if 16 ≤ m then s1
    else
      let n := s1.ketchLane
      let s2 := s1.linkMsg n 1 (s.recordBytes m ecycle 0 0 true)
      let l := s2.link n
      match l.txq.getLast? with
      | some e => s2.setLink n { l with txq := e :: l.txq.dropLast }
      | none => s2

/-- No KETCH traffic for TIMEOUT (R358). -/
def State.ketchTimeout (s : State) : State :=
  if s.role = 0 ∨ s.ketch.suspended then s
  else
    let s1 := (s.setBit aKetchStat 4 false).event 0xE 0xFF []
    let s2 : State := { s1 with ketch := { s1.ketch with suspended := true } }
    if s.role = 2 then ({ s2 with ketch := { s2.ketch with silent := true } }).setRole 1 0xFF 0 else s2

/-- A role change passed by the twin-facing device: the master drives KETCH_ACT by it (R356, R357). -/
def State.roleMessage (s : State) (r : Nat) : State := if s.memberMaster && decide (r < 6) then s.setRole r 0xFF 0 else s

/- Commands. -/

/-- COMPARE_RECORD_SEND (R354). -/
def execCompareRecordSend (m : Nat) (s : State) : Host.Outcome State Fault Refusal :=
  s.act fun s => if m < 16 then s.compareSend m else s

/-- COMPARE_RECORD (R355). -/
def execCompareRecord (record : List Byte) (s : State) : Host.Outcome State Fault Refusal :=
  s.act fun s => s.twinRecord record

/-- FAULT_NOTICE (R356). -/
def execFaultNotice (record : List Byte) (s : State) : Host.Outcome State Fault Refusal :=
  s.act fun s => s.faultNotice record

/-- KETCH_TIMEOUT (R358). -/
def execKetchTimeout (s : State) : Host.Outcome State Fault Refusal := s.act State.ketchTimeout

/-- KETCH_ROLE_MESSAGE (R356). -/
def execKetchRoleMessage (role : Nat) (s : State) : Host.Outcome State Fault Refusal := s.act fun s => s.roleMessage role

end Sys2Proof.Machine
end

