-- ==== Sys2Proof/Machine/Csync.lean ====
section
/-! DEFINITION. CSYNC frames (R339 to R342), how the master sends one, and the copying of a resync (R359, R360). -/

namespace Sys2Proof.Machine

/- Frames (R340). -/

def frFld (f : BitVec 80) (lo w : Nat) : Nat := (f.extractLsb' lo w).toNat

def frCmd (f : BitVec 80) : Nat := frFld f 1 3
def frMask (f : BitVec 80) : Nat := frFld f 4 16
def frMember (f : BitVec 80) : Nat := frFld f 20 2
def frSeq (f : BitVec 80) : Nat := frFld f 22 8
def frAt (f : BitVec 80) : Nat := frFld f 30 40

/-- CRC-8 over bits 1 to 69 in the order of sending. -/
def frCrc (f : BitVec 80) : Nat := crc8 ((List.range 69).map fun i => f.getLsbD (i + 1))

/-- START and the two closing ones stand where a frame has them. -/
def frShaped (f : BitVec 80) : Bool := !f.getLsbD 0 && f.getLsbD 78 && f.getLsbD 79

/-- CRC and AT[1:0] are right (R342). -/
def frGood (f : BitVec 80) : Bool := frFld f 70 8 == frCrc f && frAt f % 4 == 0

/-- A frame from its fields. -/
def frMake (cmd mask member seq at_ : Nat) : BitVec 80 :=
  let body : BitVec 80 := BitVec.ofNat 80 (2 * (cmd % 8) + 2 ^ 4 * (mask % 2 ^ 16) + 2 ^ 20 * (member % 4) + 2 ^ 22 * (seq % 256) +
    2 ^ 30 * (at_ % 2 ^ 40))
  body ||| BitVec.ofNat 80 (2 ^ 70 * frCrc body + 2 ^ 78 + 2 ^ 79)

/-- The frame addresses this device: its position, and its member where there is a pair. -/
def State.addressed (s : State) (f : BitVec 80) : Bool :=
  (frMask f).testBit s.pos && (frMember f).testBit (if s.member = 2 then 1 else 0)

/-- Positions present, as PRESENT of CASC_STAT. -/
def State.present (s : State) : Nat := s.fldOf aCascStat 6 16

/-- Keys of the positions that a frame to a mask addresses; position p of member B counts as 16 + p (R340, R352). -/
def State.addressees (s : State) (mask : Nat) : List Nat :=
  ((List.range 16).filter mask.testBit) ++ ((List.range 16).filter fun p => mask.testBit p && s.casc.twins.testBit p).map (16 + ·)

/-- The master sends a frame. SEQ, and AT between 20,000 and 100,000,000 reference cycles after the last bit, are chosen
freely (R342; log 7). -/
def State.sendFrame (s : State) (cmd mask regions : Nat) (chan : Option Nat) (join : Option Nat) : State :=
  let seq := (s.casc.seq + 1 + Config.freeNat s.free % 255) % 256
  let first := roundUp (s.refcnt + 20080) 4
  let at_ := first + 4 * (Config.freeNat (s.free + 1) % ((s.refcnt + 100000080 - first) / 4 + 1))
  let f := frMake cmd mask (if s.casc.twins = 0 then 1 else 3) seq at_
  let i : CsyncIssue := { cmd, seq, at_ := at_ % 2 ^ 40, need := s.addressees mask, acks := [], chan, regions, join }
  let out := if s.drivesCascade then s.casc.outbox ++ [.csync f] else s.casc.outbox
  let c : Casc := { s.casc with seq := seq, issue := if cmd = 1 then s.casc.issue else some i, outbox := out }
  { s with casc := c, free := s.free + 2 }

/- Copying for a resync (R359, R360). -/

/-- DRAM granules owned by a region or by HOST, as ranges. -/
def State.ownedRanges (s : State) : List (Nat × Nat) :=
  ((List.range (stagingGranule s.part)).filter fun g => decide (s.ownerOf (g * 0x400_0000) ≤ 0x10)).map fun g =>
    (g * 0x400_0000, 0x400_0000)

/-- Ranges of DRAM sent to the twin. -/
def State.sendRanges (s : State) (l : List (Nat × Nat)) : State :=
  if l.isEmpty then s
  else
    let cells := s.mem.filter fun e => l.any fun r => decide (r.1 ≤ e.1 ∧ e.1 < r.1 + r.2)
    s.mgmtSend (.resyncPages l cells)

def rangeSum (l : List (Nat × Nat)) : Nat := l.foldl (fun n r => n + r.2) 0

/-- The bulk copy: every page written from now on is marked. -/
def State.bulkCopy (s : State) : State :=
  let l := s.ownedRanges
  let s1 := s.sendRanges l
  let r : Option Resync := s1.ketch.resync.map fun r => { r with copied := r.copied + rangeSum l }
  { s1 with ketch := { s1.ketch with marking := true, marks := [], resync := r } }

/-- The dirty passes: four at most, and none once less than 64 MiB is marked. A pass takes no time here, so that it leaves
nothing marked. -/
def State.dirtyPasses (s : State) : State :=
  if s.ketch.marks.length * 4096 < 0x400_0000 then s
  else
    let l := s.ketch.marks.map fun p => (4096 * p, 4096)
    let s1 := s.sendRanges l
    let r : Option Resync := s1.ketch.resync.map fun r => { r with copied := r.copied + rangeSum l, passes := r.passes + 1 }
    { s1 with ketch := { s1.ketch with marks := [], resync := r } }

/-- A bundle stands in a buffer or on a link of the rigging network. -/
def State.bundlesFly (s : State) : Bool :=
  s.sws.any (fun e => e.2.bufs.any (fun b => !b.2.isEmpty) || e.2.inj.any (fun b => !b.2.isEmpty) || !e.2.flying.isEmpty) ||
  s.links.any fun e => e.2.txq.any fun x => x.cls == 2

/-- Every running region of the device stands halted, and no bundle is in flight. -/
def State.frozen (s : State) : Bool :=
  ((List.range 16).all fun m => s.rgnState m != 2 || s.halted m) && !s.bundlesFly

/-- The registers and memories of the items of R360: those of the tiles, and CFG_RGN. -/
def resyncItem (a : Nat) : Bool :=
  decide (0x10_0000_0000 ≤ a ∧ a < 0x14_0000_0000) || decide (0x15_0000_0000 ≤ a ∧ a < 0x15_0400_0000) ||
  decide (aCfgRgn 0 ≤ a ∧ a < aCfgRgn 16)

/-- The units of the items of R360. -/
def State.unitItems (s : State) : List UnitItem :=
  (s.clus.map fun e => .clu e.1 e.2) ++ (s.sws.map fun e => .sw e.1 e.2) ++ (s.arrs.map fun e => .arr e.1 e.2) ++
  (s.brs.map fun e => .br e.1 e.2) ++ (List.range 16).map fun m => .rgn m (s.rgn m).cev (s.rgn m).s0

/-- A unit takes the copied contents (R360). -/
def State.setUnit (s : State) : UnitItem → State
  | .clu k u => s.setClu k u
  | .sw t u => s.setSw t u
  | .arr t u => s.setArr t u
  | .br m u => s.setBr m u
  | .rgn m cev s0 => s.setRgn m { s.rgn m with cev, s0 }

/-- The frozen device copies what is still marked and the items of R360. -/
def State.copyItems (s : State) : State :=
  let l := s.ketch.marks.map fun p => (4096 * p, 4096)
  let s1 := s.sendRanges l
  let mem := s1.mem.filter fun e => resyncItem e.1
  let s2 := s1.mgmtSend (.resyncItems (s1.regs.filter fun e => resyncItem e.1) mem s1.unitItems)
  let r : Option Resync := s2.ketch.resync.map fun r => { r with phase := 4, copied := r.copied + rangeSum l + mem.length }
  { s2 with ketch := { s2.ketch with marks := [], marking := false, resync := r } }

/-- The freeze is complete: the healthy member copies, and the pair master sends RELEASE. -/
def State.resyncSettle (s : State) : State :=
  match s.ketch.resync with
  | some r =>
    if r.phase = 3 ∧ s.frozen = true then
      let s1 := if r.member = s.member then
          { s with ketch := { s.ketch with resync := some { r with phase := 4 } } }
        else s.copyItems
      match s1.mci.cmds.find? fun c => c.task == .resync r.member with
      | some c => s1.sendFrame 4 s1.present 0 (some c.chan) none
      | none => s1
    else s
  | none => s

end Sys2Proof.Machine
end

