-- ==== Sys2Proof/Machine/MciBase.lean ====
section
/-! DEFINITION. The mailbox channels and the completion of commands (R391 to R398, R401, R402): descriptors, statuses, and
what a command that waits completes on. -/

namespace Sys2Proof.Machine

/- Completion statuses (R402). -/

def cOk : Nat := 0x0000
def cBusy : Nat := 0x0001
def cTimeout : Nat := 0x0002
def cBadOpcode : Nat := 0x0010
def cBadParam : Nat := 0x0011
def cSignature : Nat := 0x0020
def cHash : Nat := 0x0021
def cTarget : Nat := 0x0022
def cTruncated : Nat := 0x0023
def cOutside : Nat := 0x0024
def cCapacity : Nat := 0x0025
def cOwned : Nat := 0x0030
def cNotOwner : Nat := 0x0031
def cFenced : Nat := 0x0040
def cFenceTimeout : Nat := 0x0041
def cAbsent : Nat := 0x0050
def cKetch : Nat := 0x0060
def cLifecycle : Nat := 0x0070
def cLocked : Nat := 0x0071
def cInternal : Nat := 0x00F0

/- Descriptors (R391, R392). -/

/-- Where channel `n` lies among the BAR0 keys. -/
def chanBase (n : Nat) : Nat := aBar0 (0x1000 * n)

def descPtr (d : Desc) : Bool := d.flags.getLsbD 0
def descRptr (d : Desc) : Bool := d.flags.getLsbD 1
def descNoIrq (d : Desc) : Bool := d.flags.getLsbD 2
def descRelay (d : Desc) : Bool := d.flags.getLsbD 3
def descDev (d : Desc) : Nat := d.flags.toNat / 256 % 16

/-- The 64 bytes of a descriptor as the host writes them. A command of the table comes with its payload fetched, so PADDR
is left 0. -/
def descBytes (opcode : Nat) (d : Desc) : List Byte :=
  bytesOfNat 2 opcode ++ bytesOfNat 2 d.flags.toNat ++ bytesOfNat 2 d.tag.toNat ++ zeros 2 ++
  bytesOfNat 4 d.payload.length ++ zeros 12 ++ bytesOfNat 8 d.raddr.toNat ++ bytesOfNat 4 d.rmax ++ zeros 28

/-- Emulation and glue regions that a mask names, in order: 16 + n for Gn (R401). -/
def masked (mask : Nat) : List Nat := (List.range 24).filter mask.testBit

/-- What performing a command ends in: its completion, or something it waits for. -/
inductive Reply where
  | done (status : Nat) (result : List Byte)
  | wait (task : Task)
  deriving DecidableEq, Repr

/- Completion (R393). -/

/-- A command completes: its result, RLEN and STATUS reach the channel, then BUSY clears and DONE sets, and vector n is
signalled unless NOIRQ. A result for host memory that cannot go out makes it TIMEOUT (R398). A relayed command's status and
result go back to the master (R399). While the management complex restarts, no command completes: one in progress waits for
its INTERNAL (R32). -/
def State.complete (s : State) (c : MciCmd) (status : Nat) (result : List Byte) : State :=
  if !s.pwr.firmware then s
  else
  let s0 : State := { s with mci := { s.mci with cmds := s.mci.cmds.filter fun x => x.chan != c.chan } }
  if 16 ≤ c.chan then s0.mgmtSend (.relayReply c.opcode status result)
  else
    let b := chanBase c.chan
    let far := descRptr c.desc && !result.isEmpty
    let gone := far && !s.hostReach
    let s1 := if gone then s0.count aHpStat 8 16 else if far then s0.hostWrite c.desc.raddr.toNat result
      else s0.putMem (b + 0x40) result
    let s2 := (s1.putMem (b + 6) (bytesOfNat 2 (if gone then cTimeout else status))).putMem (b + 12)
      (bytesOfNat 4 (if gone then 0 else result.length))
    let s3 := (s2.setBit aDbBusy c.chan false).setBit aDbDone c.chan true
    if descNoIrq c.desc then s3 else s3.msix c.chan

/-- Every command whose task satisfies a test completes with a status and no result. -/
def State.completeAll (s : State) (p : MciCmd → Bool) (status : Nat) : State :=
  s.forEach (s.mci.cmds.filter p) fun s c => s.complete c status []

/-- A command waits for something else. -/
def State.retask (s : State) (c : MciCmd) (t : Task) : State :=
  { s with mci := { s.mci with cmds := s.mci.cmds.map fun x => if x.chan = c.chan then { x with task := t } else x } }

/-- The records of HALT and STEP: region and ECYCLE (R401). -/
def State.haltRecords (s : State) (mask : Nat) : List Byte :=
  (masked mask).flatMap fun m => bytesOfNat 1 m ++ zeros 7 ++ bytesOfNat 8 (s.fldOf (aRgnEcycle m) 0 48)

/-- A region of a fence's mask is there: both drains of an emulation region, the fence of a glue region at once (R296). -/
def State.fenceReached (s : State) (m : Nat) : Bool := if m < 16 then s.fenceDone m else s.glueFenced (m - 16)

/-- STEP_GO of every region of a mask by COUNT units (R439). -/
def State.stepMask (s : State) (mask unit count : Nat) : State :=
  s.forEach (masked mask) fun s m => ((s.setFld (aDbgHalt m) 3 1 unit).setFld (aDbgHalt m) 12 20 count).stepGo m

/- TRACE_SET (R458). -/

/-- Every source disabled. -/
def State.ttAllOff (s : State) : State :=
  s.forEach (List.range 64) fun s t => s.ttConfig t (putFld (s.reg (aTtCfg t)) 0 2 0)

/-- A payload's values are not among those that TRACE_SET refuses. -/
def State.traceOk (s : State) (p : List Byte) : Bool :=
  let sink := leNum p 16 1
  let lane := leNum p 19 1
  let size := leNum p 32 4
  decide (sink ≤ 3 ∧ leNum p 17 1 < 4 ∧ 17 ≤ leNum p 20 1 ∧ leNum p 20 1 ≤ 63 ∧ 0 < size ∧ size % 4096 = 0) &&
  allZero (sub p 21 3) && allZero (sub p 40 8) &&
  (sink != 1 || s.ownedBy 0x10 (leNum p 24 8) size) &&
  (sink != 3 || (s.lnActive lane && (s.link lane).classesOn.testBit 5))

/-- The new configuration, with WPTR and RPTR back at 0. Under DEFER the sources wait for TT_START. -/
def State.traceApply (s : State) (p : List Byte) : State :=
  let flags := leNum p 17 1
  let lo := fun (r : Nat) => leNum p (48 + 16 * r) 8
  let ranges := (List.range 8).foldl (fun v r => v + lo r / 2 ^ 63 % 2 * 2 ^ r) 0
  let s1 : State := { s with trace := { s.trace with flowTiles := leNum p 0 8, dataTiles := leNum p 8 8 } }
  let sink := leNum p 16 1 + 4 * (flags % 2) + 8 * leNum p 19 1 + 2048 * leNum p 20 1
  let s2 := (((s1.setReg aFunSink (BitVec.ofNat 64 sink)).setReg aFunBase (BitVec.ofNat 64 (leNum p 24 8))).setReg aFunSize
    (BitVec.ofNat 64 (leNum p 32 8))).setReg aFunWptr 0
  let s3 := (s2.setReg aFunRptr 0).forEach (List.range 8) fun s r =>
    (s.setReg (aFunLo r) (BitVec.ofNat 64 (lo r % 2 ^ 48))).setReg (aFunHi r) (BitVec.ofNat 64 (leNum p (56 + 16 * r) 8 % 2 ^ 48))
  s3.forEach (List.range 64) fun s t =>
    let on := if flags / 2 % 2 = 1 then 0 else leNum p 0 8 / 2 ^ t % 2 + 2 * (leNum p 8 8 / 2 ^ t % 2)
    s.ttConfig t (BitVec.ofNat 64 (on + 4 * leNum p 18 1 + 1024 * ranges))

/- State access (R406). -/

/-- Size of the next request of a split access: the largest natural one that its target takes, else the largest natural
one. -/
def pieceSize (p : Part) (a n : Nat) : Nat :=
  let l := [64, 32, 16, 8, 4, 2, 1].filter fun k => decide (k ≤ n) && a % k == 0
  (l.find? fun k => placeOf p a == .nowhere || sizeOk p a k).getD (l.getD 0 1)

/-- The result of an access that has come to byte `done`: its header, and the data read; then the command's status. -/
def accessReply (write : Bool) (addr done status : Nat) (poison : Bool) (got : List Byte) : Nat × List Byte :=
  let ok := status == stOk
  let head := bytesOfNat 8 (if ok then 0 else addr + done) ++ bytesOfNat 1 status ++ bytesOfNat 1 (b2n poison) ++ zeros 6
  (if ok then cOk else if status = stFenced then cBusy else if status = stUnreachable then cTimeout else cBadParam,
   if write then head else head ++ got)

/-- Memory of a region whose fence is in force and not drained, which the firmware does not write (R235): the region that
an address belongs to. -/
def State.undrained (s : State) (a : Nat) : Bool :=
  let open_ := fun (m : Nat) => s.bitOf (aNocFence m) 0 && !s.bitOf (aNocFence m) 1
  match placeOf s.part a with
  | .dram =>
    let o := (s.byte (0x15_0800_0000 + a / 0x400_0000)).toNat % 32
    decide (o < 16) && open_ o
  | .scratchpad t | .cluster _ t _ _ | .array t _ => open_ (regionOfTile t)
  | _ => false

/-- The configuration engine sends the next request of a STATE_READ or STATE_WRITE while it has a tag, or the command is
complete (R229, R406). It stands still while the firmware does not run. A write into a region whose fence has not drained is
not made: BUSY (R235; log 99). -/
def State.accessNext (s : State) (c : MciCmd) : State :=
  match c.task with
  | .access write addr len done got poison =>
    if !s.pwr.firmware || s.noc.tags.any (fun x => x.use == .engine c.chan) then s
    else if len ≤ done then
      let r := accessReply write addr done stOk poison got
      s.complete c r.1 r.2
    else
      let k := pieceSize s.part (addr + done) (len - done)
      if write && s.undrained (addr + done) then
        let r := accessReply write addr done stFenced poison got
        s.complete c r.1 r.2
      else
        let dn := (targetOf s.part 0 (addr + done)).1
        (s.sendReq (ioNode dn) 1 .config write (addr + done) k (if write then sub (c.desc.payload.drop 16) done k else []) s.pos
          (.engine c.chan)).1
  | _ => s

/-- The outcome of a request of the configuration engine reaches its command: the next one, or the end at the first that is
not answered OK. -/
def State.accessOutcome (s : State) (chan status : Nat) (poison : Bool) (data : List Byte) (len : Nat) : State :=
  match s.mci.cmds.find? fun c => c.chan == chan with
  | some c => match c.task with
    | .access write addr n done got p =>
      if status = stOk then
        let task := Task.access write addr n (done + len) (if write then got else got ++ data) (p || poison)
        (s.retask c task).accessNext { c with task }
      else if s.pwr.firmware then
        let r := accessReply write addr done status p got
        s.complete c r.1 r.2
      else s
    | _ => s
  | none => s

/-- A waiting command whose condition has come true completes: HALT and STEP, REGION_FENCE, REGION_POWER,
TRACE_SET once the funnel has drained. -/
def State.settleCmd (s : State) (c : MciCmd) : State :=
  match c.task with
  | .halt mask => if (masked mask).all s.halted then s.complete c cOk (s.haltRecords mask) else s
  | .step mask unit count begun =>
    if !(masked mask).all s.halted then s
    else if begun then s.complete c cOk (s.haltRecords mask)
    else
      let s1 := (s.stepMask mask unit count).retask c (.step mask unit count true)
      if (masked mask).all s1.halted then s1.complete c cOk (s1.haltRecords mask) else s1
  | .fence mask => if (masked mask).all s.fenceReached then s.complete c cOk [] else s
  | .power mask =>
    if (masked mask).all fun m => !s.bitOf (aTilePwr (homeTile m)) 3 then s.complete c cOk [] else s
  | .access _ _ _ _ _ _ => s.accessNext c
  | .drainTrace => if s.trace.packets.isEmpty then (s.traceApply c.desc.payload).complete c cOk [] else s
  | _ => s

/-- Every waiting command is looked at in the order in which they began, and a resync that waits for its freeze. -/
def State.settle (s : State) : State := (s.mci.cmds.foldl (fun s c => s.settleCmd c) s).resyncSettle

/- Reads of host memory (R334). -/

/-- A read of host memory ends without a completion: its requester is answered UNREACHABLE, or the command whose payload
it fetched completes with TIMEOUT (R398). -/
def State.readLost (s : State) (r : HostRead) : State :=
  let s1 := ({ s with host := { s.host with reads := s.host.reads.filter fun x => x.tag != r.tag } }).count aHpStat 8 16
  match r.req with
  | some q => s1.answer q stUnreachable [] false
  | none => s1.completeAll (fun c => c.chan == r.chan && c.task == .payload) cTimeout

end Sys2Proof.Machine
end

