-- ==== Sys2Proof/Machine/Network.lean ====
section
/-! DEFINITION. Packets at their endpoints (R213, R216 to R234): requests served or answered, write data, grants,
completions and read data sunk, invalidations; the host port's part in both directions (R333, R334). -/

namespace Sys2Proof.Machine

/- Host port: BAR2 (R333). -/

/-- The pieces of at most 64 bytes, each within one 64-byte block, of `n` bytes at `a`. -/
def bar2Split : Nat → Nat → Nat → List Byte → List Bar2Piece
  | 0, _, _, _ => []
  | fuel + 1, a, n, d =>
    if n = 0 then []
    else
      let k := min n (64 - a % 64)
      { addr := a, len := k, phase := 0, status := 0, poison := false, data := d.take k } :: bar2Split fuel (a + k) (n - k) (d.drop k)

/-- A request of the packet network in the sizes of R218: 1, 2, 4 or 8 aligned bytes, or 16 to 64; other pieces go out as
single bytes. -/
def pieceForms (p : Bar2Piece) : List Bar2Piece :=
  if (p.len = 1 ∨ p.len = 2 ∨ p.len = 4 ∨ p.len = 8) ∧ p.addr % p.len = 0 ∨ 16 ≤ p.len then [p]
  else (List.range p.len).map fun i => { p with addr := p.addr + i, len := 1, data := (p.data.drop i).take 1 }

/-- Pieces of an operation that have been answered in address order since the last completion go to the host. -/
def State.bar2Complete (s : State) (o : Bar2Op) : State × Bar2Op :=
  let done := o.pieces.takeWhile fun p => p.phase == 2
  let code := fun (p : Bar2Piece) => if p.status = stOk then 0 else if p.status = stDecode then 1 else 2
  let s1 := s.forEach done fun s p =>
    if o.write then
      if p.status = stOk then s else { s with host := { s.host with aer := s.host.aer ++ [code p] } }
    else
      let ep := decide (p.status = stOk) && p.poison
      let cpl : HostCpl := { bar := 2, key := o.tag, status := code p, ep, data := if p.status = stOk then p.data else [] }
      let s1 : State := { s with host := { s.host with cpls := s.host.cpls ++ [cpl] } }
      let s2 := if p.status = stOk then s1 else s1.count aHpStat 24 16
      if ep then s2.count aHpStat 40 16 else s2
  (s1, { o with pieces := o.pieces.drop done.length })

/-- Every piece that may go out is sent: in order, a read only when no earlier write is outstanding. -/
def bar2Send : List Bar2Op → Bool → State → List Bar2Op × State
  | [], _, s => ([], s)
  | o :: rest, blocked, s =>
    let hold := blocked && !o.write
    let r := o.pieces.foldl (fun (acc : List Bar2Piece × State × Bool) p =>
      if p.phase ≠ 0 ∨ acc.2.2 then (acc.1 ++ [p], acc.2.1, acc.2.2)
      else
        let (dn, _) := targetOf acc.2.1.part 0 p.addr
        let q := acc.2.1.sendReq (ioNode dn) 2 .host o.write p.addr p.len p.data acc.2.1.pos (.bar2 o.tag)
        if q.2 then (acc.1 ++ [{ p with phase := 1 }], q.1, false) else (acc.1 ++ [p], acc.2.1, true)) ([], s, hold)
    let next := bar2Send rest (blocked || (o.write && decide (r.1 ≠ []))) r.2.1
    ({ o with pieces := r.1 } :: next.1, next.2)

/-- The port's BAR2 work brought forward: completions out, finished requests gone, pieces sent. -/
def State.bar2Pump (s : State) : State :=
  let r := s.host.bar2.foldl (fun (acc : List Bar2Op × State) o =>
    let c := acc.2.bar2Complete o
    (if c.2.pieces.isEmpty then acc.1 else acc.1 ++ [c.2], c.1)) ([], s)
  let q := bar2Send r.1 false r.2
  { q.2 with host := { q.2.host with bar2 := q.1 } }

/-- A host BAR2 request (R333). -/
def State.bar2Request (s : State) (write : Bool) (off len tag : Nat) (data : List Byte) : State :=
  let op : Bar2Op := { tag, write, pieces := (bar2Split 4097 off len data).flatMap pieceForms }
  ({ s with host := { s.host with bar2 := s.host.bar2 ++ [op] } }).bar2Pump

/-- The outcome of a piece of the BAR2 request `tag`. -/
def State.bar2Outcome (s : State) (tag addr status : Nat) (poison : Bool) (data : List Byte) : State :=
  let hit := fun (p : Bar2Piece) => if p.phase == 1 && p.addr == addr then
      { p with phase := 2, status, poison, data } else p
  let upd := fun (o : Bar2Op) => if o.tag == tag then { o with pieces := o.pieces.map hit } else o
  ({ s with host := { s.host with bar2 := s.host.bar2.map upd } }).bar2Pump

/- Host port: toward host memory (R334). -/

/-- The lowest tag of the host port that no read of host memory uses. -/
def State.hostTag (s : State) : Nat :=
  ((List.range 1024).find? fun i => !(s.host.reads.any fun r => r.tag == i)).getD 1024

/-- A packet-network request to the host port: a write goes to host memory; a read waits for its completion; both are
UNREACHABLE while the link is down or bus mastering is off (R224, R334). -/
def State.toHost (s : State) (q : Req) : State :=
  if !s.hostReach then (s.count aHpStat 8 16).answer q stUnreachable [] false
  else if q.op = .rd then
    { s with host := { s.host with reads := s.host.reads ++ [{ tag := s.hostTag, chan := 0, req := some q }] } }
  else (s.hostWrite q.addr q.data).answer q stOk [] false

/- Targets. -/

/-- The fence responder of a tile answers in place of the endpoint: the status it gives, or none where the request passes
(R31, R233), as one does that reached the endpoint before the fence point (R234). -/
def State.responder (s : State) (q : Req) : Option Nat :=
  let m := regionOfTile q.dstNode
  let port := !s.noc.before.contains (m, q) && (q.dstPort == 0 || q.dstPort == 1 || q.dstPort == 3 || q.dstPort == 4 || q.dstPort == 5)
  if 64 ≤ q.dstNode ∨ !port ∨ !s.fenced m then none
  else if q.dstPort < 2 ∧ (q.origin = .config ∨ (q.origin = .jtag ∧ q.op = .rd)) then
    (if s.domainOf m = 0 then none else some stDenied)
  else some stFenced

/-- Yard that clocks what an address of a tile names (R367); none for what no leaf clocks. -/
def State.leafOf (s : State) (a : Nat) : Option Nat :=
  match placeOf s.part (s.translate a) with
  | .scratchpad t => some (leafYard t 12)
  | .cluster _ t c _ => some (cluLeaf t c)
  | .array t _ => some (leafYard t 9)
  | .tileRegs t o =>
    if 0x8000 ≤ o ∧ o < 0xA100 then some (cluLeaf t ((o - 0x8000) / 0x40))
    else if 0xD000 ≤ o ∧ o < 0xD080 then some (leafYard t 9)
    else if 0xE000 ≤ o ∧ o < 0xE020 then some (leafYard t 12)
    else if 0xF100 ≤ o ∧ o < 0xF200 then some (leafYard t 11)
    else none
  | _ => none

/-- A request opens the yard it meets closed, in a domain that is ON (R369). -/
def State.openFor (s : State) (a : Nat) : State :=
  match s.leafOf a with
  | some y => if s.clocked y then s else s.openYard y
  | none => s

/-- The endpoint that a request names holds its address (R214). -/
def holds (p : Part) (q : Req) : Bool :=
  match placeOf p q.addr with
  | .scratchpad t => q.dstNode == t && q.dstPort == 1
  | .cluster _ t _ _ => q.dstNode == t && q.dstPort == 0
  | .array t _ => q.dstNode == t && q.dstPort == 0
  | .tileRegs t _ => q.dstNode == t && q.dstPort == 0
  | .glueFrame _ _ | .serial | .window _ => decide (64 ≤ q.dstNode) && q.dstPort == 4
  | .ownership | .ioRegs | .secure | .flash => decide (64 ≤ q.dstNode) && q.dstPort == 5
  | _ => false

/-- A packet of a Telltale tap at the funnel (R213, R455). -/
def atFunnel (q : Req) : Bool := decide (64 ≤ q.dstNode) && q.dstPort == 6 && q.op != .rd && q.origin == .trace

/-- Status of a request at a target other than a DRAM controller and the host port, before its access is performed. -/
def State.targetStatus (s : State) (q : Req) : Nat :=
  if atFunnel q then stOk
  else if !holds s.part q then stDecode
  else if !reqFormed q then stMalformed
  else s.judge q.origin q.srcNode (q.op != .rd) q.addr q.len

/-- A request to the BAR4 window as its user bus port takes it; none for another address (R261). -/
def busReqOf (p : Part) (q : Req) : Option Bar4Req :=
  match placeOf p q.addr with
  | .window off => some { n := off / 0x20_0000, off, size := q.len, write := q.op != .rd,
                          value := BitVec.ofNat 64 (natOfBytes q.data), req := some q }
  | _ => none

/-- A judged request performed at its endpoint and answered; at a scratchpad it waits for its bank (R172), at the funnel for
its sink (R455), at a user bus port for the region's logic (R261). -/
def State.performReq (s : State) (q : Req) : State :=
  if atFunnel q then { s with trace := { s.trace with atFunnel := s.trace.atFunnel ++ [q] } }
  else match busReqOf s.part q with
  | some b => s.busRequest b
  | none =>
  let s := s.openFor q.addr
  if q.dstNode < 64 ∧ q.dstPort = 1 then s.bankArrive q.dstNode q
  else if q.op = .rd then
    let r := s.readAt q.origin q.addr q.len
    r.1.answer q r.2.1 r.2.2.1 r.2.2.2
  else
    let r := s.writeAt q.origin q.addr q.data q.poison
    r.1.answer q r.2 [] false

/-- A target that keeps requests for other devices, DRAM requests or host requests out of the general path. -/
def State.routed (s : State) (q : Req) : Option State :=
  if q.dstDev ≠ s.pos then some (s.hubForward (s.exitOf (.req q)).1 q.dstDev (.req q))
  else if q.dstNode < 64 ∧ q.dstPort = 2 then
    some (if placeOf s.part q.addr = .dram ∧ channelTile (dramChannel q.addr) = q.dstNode then
        s.dramArrive (tileChannel q.dstNode) q else s.answer q stDecode [] false)
  else none

/-- Requests that a lane hub has forwarded over its links and that have no completion yet (R224). -/
def State.hubHeld (s : State) (t : Nat) : Nat :=
  ((s.links.filter fun e => quadTile (e.1 / 4) == t).map fun e => e.2.forwarded.length).sum

/-- A request that stays at its port (R231): at a lane hub whose 1,024 places are taken (R213), for a write buffer, or at the
secure SRAM, where the management cores stall until the wipe is over (R205). -/
def State.stays (s : State) (q : Req) : Bool :=
  if q.dstDev ≠ s.pos then decide (tagPool 0 6 ≤ s.hubHeld (s.exitOf (.req q)).1)
  else q.origin == .mgmt && placeOf s.part q.addr == .secure && !s.pwr.wiped

/-- RD reaches its target (R216). -/
def State.readReq (s : State) (q : Req) : State :=
  match s.routed q with
  | some s' => s'
  | none =>
    match s.responder q with
    | some st => s.answer q st [] false
    | none =>
      if 64 ≤ q.dstNode ∧ q.dstPort = 2 then s.toHost q
      else
        let st := s.targetStatus q
        if st = stOk then s.performReq q else s.answer q st [] false

/-- WR reaches its target (R216). -/
def State.writeReq (s : State) (q : Req) : State :=
  match s.routed q with
  | some s' => s'
  | none =>
    match s.responder q with
    | some st => s.answer q st [] false
    | none =>
      if 64 ≤ q.dstNode ∧ q.dstPort = 2 then s.toHost q
      else
        let st := s.targetStatus q
        if st = stOk then s.performReq q else s.answer q st [] false

/-- The endpoint of a WRB holds a free write buffer (R230; log 15). -/
def State.bufferFree (s : State) (q : Req) : Bool :=
  decide ((s.noc.wbufs.filter fun b => b.node == q.dstNode && b.port == q.dstPort).length < s.noc.wplaces)

/-- The grant of a WRB. -/
def grantOf (q : Req) : Rsp :=
  { grant := true, urg := q.urg, dstNode := q.srcNode, dstPort := q.srcPort, tag := q.tag, status := 0, poison := false,
    dstDev := q.srcDev, data := [] }

/-- WRB reaches its target (R230): refused by its header, or accepted with a write buffer and granted. -/
def State.grantReq (s : State) (q : Req) : State :=
  match s.routed q with
  | some s' => s'
  | none =>
    match s.responder q with
    | some st => s.answer q st [] false
    | none =>
      let st := if 64 ≤ q.dstNode ∧ q.dstPort = 2 then (if s.hostReach then stOk else stUnreachable) else s.targetStatus q
      if st ≠ stOk then s.answer q st [] false
      else
        let s1 : State := { s with noc := { s.noc with
          wbufs := s.noc.wbufs ++ [{ node := q.dstNode, port := q.dstPort, req := q }] } }
        s1.inject q.dstNode q.dstPort (.rsp (grantOf q))

/-- A packet of requests taken from its port when its endpoint can accept it. -/
def State.wrb (s : State) (q : Req) : State :=
  let dram := q.dstNode < 64 ∧ q.dstPort = 2
  if s.stays q ∨ (q.dstDev = s.pos ∧ ¬ dram ∧ s.responder q = none ∧ !s.bufferFree q) then s
  else (s.grantReq q).takeArrived (.req q)

/-- WDATA reaches the target (R230): a DRAM transaction has its data, another endpoint performs the write. -/
def State.wdata (s : State) (d : Dat) : State :=
  if d.dstDev ≠ s.pos then s.hubForward (s.exitOf (.dat d)).1 d.dstDev (.dat d)
  else
  let d := sunk d
  if d.dstNode < 64 ∧ d.dstPort = 2 then
    let g := tileChannel d.dstNode
    let c := s.chan g
    let hit := fun (x : Txn) => x.awaitData && x.req.tag == d.tag && x.req.srcNode == d.srcNode &&
      x.req.srcPort == d.srcPort && x.req.srcDev == d.srcDev
    match takeFirst hit c.held with
    | some (x, _) =>
      let fill := fun (y : Txn) => if y.slot == x.slot then
        { y with data := ofBlock x.req.addr x.req.len d.data, poison := d.poison, awaitData := false } else y
      s.setChan g { c with held := c.held.map fill }
    | none => s
  else
    match takeFirst (fun b => b.node == d.dstNode && b.port == d.dstPort && b.req.tag == d.tag &&
        b.req.srcNode == d.srcNode && b.req.srcPort == d.srcPort && b.req.srcDev == d.srcDev) s.noc.wbufs with
    | some (b, rest) =>
      let q : Req := { b.req with data := ofBlock b.req.addr b.req.len d.data, poison := d.poison }
      let s1 : State := { s with noc := { s.noc with wbufs := rest } }
      if 64 ≤ q.dstNode ∧ q.dstPort = 2 then s1.toHost q else s1.performReq q
    | none => s

/- Requesters. -/

/-- GRANT reaches the requester, which sends WDATA (R230). -/
def State.takeGrant (s : State) (p : Rsp) : State :=
  if p.dstDev ≠ s.pos then s.hubForward (s.exitOf (.rsp p)).1 p.dstDev (.rsp p)
  else match s.noc.tags.find? fun x => x.node == p.dstNode && x.port == p.dstPort && x.tag == p.tag with
  | some x =>
    let q := x.req
    let d : Dat := { write := true, urg := p.urg, dstNode := q.dstNode, dstPort := q.dstPort, tag := q.tag,
                     srcNode := q.srcNode, srcPort := q.srcPort, status := 0, poison := q.poison, dstDev := q.dstDev,
                     srcDev := q.srcDev, data := toBlock q.addr q.data }
    s.inject q.srcNode q.srcPort (.dat d)
  | none => s

/-- The outcome of a requester's transaction, once its tag is free (R223, R229). -/
def State.settleTag (s : State) (x : TagHeld) (status : Nat) (poison : Bool) (data : List Byte) : State :=
  let write := x.req.op != .rd
  let ok := decide (status = stOk) && !poison
  match x.use with
  | .mm t c => s.mmOutcome t c x.req.addr write ok (BitVec.ofNat 64 (natOfBytes data))
  | .stream t n => s.arrayOutcome t n x.req.addr x.req.len write ok data
  | .bar2 tag => s.bar2Outcome tag x.req.addr status poison data
  | .jtag =>
    { s with tap := { s.tap with busy := s.noc.tags.any (·.use == .jtag), status, poison, err := !ok,
                                 data := if write then s.tap.data else BitVec.ofNat 64 (natOfBytes data) } }
  | .capture t => (s.capOutcome t status).capFlush t
  | .telltale t => s.tapSend t
  | .engine n => s.accessOutcome n status poison data x.req.len
  | .other => s

/-- CPL reaches the requester (R219, R229). -/
def State.completion (s : State) (p : Rsp) : State :=
  if p.dstDev ≠ s.pos then s.hubForward (s.exitOf (.rsp p)).1 p.dstDev (.rsp p)
  else match s.releaseTag p.dstNode p.dstPort p.tag with
  | some (x, s1) => s1.settleTag x p.status p.poison (p.data.take x.req.len)
  | none => s

/-- RDATA reaches the requester (R220, R229). -/
def State.readData (s : State) (d : Dat) : State :=
  if d.dstDev ≠ s.pos then s.hubForward (s.exitOf (.dat d)).1 d.dstDev (.dat d)
  else match s.releaseTag d.dstNode d.dstPort d.tag with
  | some (x, s1) => s1.settleTag x d.status (sunk d).poison (ofBlock x.req.addr x.req.len (sunk d).data)
  | none => s

/-- INV reaches a cache, or the fence responder in its place: the line is dropped and INV_ACK answered (R232, R233). -/
def State.invalidate (s : State) (p : Snp) : State :=
  let s1 := if p.dstNode < 64 then s.cacheDrop p.dstNode p.line else s
  s1.inject p.dstNode p.dstPort (.snp { p with ack := true, dstNode := p.srcNode, dstPort := 2, srcNode := p.dstNode })

/- Commands. -/

/-- RD (R216). -/
def execRd (q : Req) (s : State) : Host.Outcome State Fault Refusal :=
  s.act fun s => if s.stays q then s else (s.readReq { q with op := .rd }).takeArrived (.req q)

/-- WR (R216). -/
def execWr (q : Req) (s : State) : Host.Outcome State Fault Refusal :=
  s.act fun s => if s.stays q then s else (s.writeReq { q with op := .wr }).takeArrived (.req q)

/-- WRB (R230). -/
def execWrb (q : Req) (s : State) : Host.Outcome State Fault Refusal := s.act fun s => s.wrb { q with op := .wrb }

/-- GRANT (R230). -/
def execGrant (p : Rsp) (s : State) : Host.Outcome State Fault Refusal :=
  s.act fun s => (s.takeArrived (.rsp p)).takeGrant p

/-- WDATA (R230). -/
def execWdata (p : Dat) (s : State) : Host.Outcome State Fault Refusal :=
  s.act fun s => (s.takeArrived (.dat p)).wdata p

/-- CPL (R219). -/
def execCpl (p : Rsp) (s : State) : Host.Outcome State Fault Refusal :=
  s.act fun s => (s.takeArrived (.rsp p)).completion p

/-- RDATA (R220). -/
def execRdata (p : Dat) (s : State) : Host.Outcome State Fault Refusal :=
  s.act fun s => (s.takeArrived (.dat p)).readData p

/-- INV (R232). -/
def execInv (p : Snp) (s : State) : Host.Outcome State Fault Refusal :=
  s.act fun s => (s.takeArrived (.snp p)).invalidate p

/-- INV_ACK (R232). -/
def execInvAck (p : Snp) (s : State) : Host.Outcome State Fault Refusal :=
  s.act fun s => (s.takeArrived (.snp p)).invAck (tileChannel p.dstNode) p.line (if p.srcNode < 64 then p.srcNode else 64)

/-- FLIT_GRANT (R228). -/
def execFlitGrant (node net out : Nat) (s : State) : Host.Outcome State Fault Refusal :=
  s.act fun s => s.flitGrant node net out

/-- URGENCY_RISE (R227). -/
def execUrgencyRise (node net input vc : Nat) (s : State) : Host.Outcome State Fault Refusal :=
  s.act fun s => s.urgencyRise node net input vc

/-- BAR2_REQUEST (R333). -/
def execBar2Request (write : Bool) (off len tag : Nat) (data : List Byte) (s : State) :
    Host.Outcome State Fault Refusal :=
  s.act fun s => s.bar2Request write off len tag data

end Sys2Proof.Machine
end

