-- ==== Sys2Proof/Machine/ExecGlue.lean ====
section
/-! DEFINITION. Commands that write a register or a frame by a row of their own, and those of the glue fabric, the pins and
the BAR4 window. -/

namespace Sys2Proof.Machine

/- Writes that reach their target (R209, R233, R237). -/

/-- The write request that carries `d` to an address. -/
def writeOf (p : Part) (o : Origin) (a : Nat) (d : List Byte) : Req :=
  let (dn, dp) := targetOf p 0 a
  { op := .wr, urg := 1, dstNode := dn, dstPort := dp, srcNode := ioNode dn, srcPort := 0, tag := 0, len := d.length,
    origin := o, dstDev := 0, srcDev := 0, addr := a, data := d, poison := false }

/-- A write of `d` at an address by a requester: performed, or refused with a status that the counters record. -/
def State.directWrite (s : State) (o : Origin) (a : Nat) (d : List Byte) : State :=
  let q := writeOf s.part o a d
  match s.responder q with
  | some st => if st = stFenced then s.fencedRsp q.dstNode else s.nocErr a st (originCode o) q.dstNode
  | none =>
    let r := (s.openFor a).access o q.dstNode true a d.length d false
    if r.2.1 = stOk then r.1
    else if r.2.1 = stFenced then r.1.fencedRsp q.dstNode
    else r.1.nocErr a r.2.1 (originCode o) q.dstNode

/-- The eight bytes of a register value. -/
def regBytes (v : W64) : List Byte := bytesOfNat 8 v.toNat

/-- SLOT_TABLE_WRITE (R95). -/
def execSlotTableWrite (origin : Origin) (addr : Nat) (value : W64) (s : State) : Host.Outcome State Fault Refusal :=
  s.act fun s =>
    if (match placeOf s.part addr with
        | .tileRegs _ o => decide (0x4_0000 ≤ o ∧ o < 0xA_8000)
        | _ => false)
    then s.directWrite origin addr (regBytes value) else s

/-- SP_PWR_WRITE (R179). -/
def execSpPwrWrite (origin : Origin) (t : Nat) (value : W64) (s : State) : Host.Outcome State Fault Refusal :=
  s.act fun s => if t < 64 then s.directWrite origin (aSpPwr t) (regBytes value) else s

/-- FRAME_WRITE (R244). -/
def execFrameWrite (origin : Origin) (addr : Nat) (value : W64) (s : State) : Host.Outcome State Fault Refusal :=
  s.act fun s => if 0x14_0000_0000 ≤ addr ∧ addr < 0x14_0800_0000 then s.directWrite origin addr (regBytes value) else s

/-- GCLK_SEL_WRITE (R247). -/
def execGclkSelWrite (origin : Origin) (n : Nat) (value : W64) (s : State) : Host.Outcome State Fault Refusal :=
  s.act fun s => if n < 8 then s.directWrite origin (aGclkSel n) (regBytes value) else s

/-- SWITCH_FORCED (R371). -/
def execSwitchForced (n : Nat) (s : State) : Host.Outcome State Fault Refusal := s.act fun s => s.switchForced n

/-- DCO_CFG_WRITE (R253). -/
def execDcoCfgWrite (origin : Origin) (k : Nat) (value : W64) (s : State) : Host.Outcome State Fault Refusal :=
  s.act fun s => if k < 8 then s.directWrite origin (aDcoCfg k) (regBytes value) else s

/-- DCO_WINDOW (R250). -/
def execDcoWindow (k : Nat) (errPpm : Int) (s : State) : Host.Outcome State Fault Refusal :=
  s.act fun s => if k < 8 then s.dcoWindow k errPpm else s

/- BAR4 (R261, R333). -/

/-- A BAR4 request of the host at the user bus port of its region. -/
def State.bar4Request (s : State) (write : Bool) (off size : Nat) (value : W64) : State :=
  let q : Bar4Req := { n := off / 0x20_0000, off, size, write, value }
  if (size ≠ 4 ∧ size ≠ 8) ∨ off % size ≠ 0 ∨ 0x100_0000 ≤ off then s.bar4Complete q stMalformed []
  else s.busRequest q

/-- BAR4_REQUEST (R261). -/
def execBar4Request (write : Bool) (off size : Nat) (value : W64) (s : State) : Host.Outcome State Fault Refusal :=
  s.act fun s => s.bar4Request write off size value

/-- The oldest waiting request of a region completes with DENIED and read data 0. -/
def State.bar4Timeout (s : State) (n : Nat) : State :=
  match takeFirst (fun (q : Bar4Req) => q.n == n) s.glue.bar4 with
  | some (q, rest) => ({ s with glue := { s.glue with bar4 := rest } }).bar4Complete q stDenied []
  | none => s

/-- BAR4_TIMEOUT (R261). -/
def execBar4Timeout (n : Nat) (s : State) : Host.Outcome State Fault Refusal := s.act fun s => s.bar4Timeout n

/-- FLASH_READ_PORT (R256). -/
def execFlashReadPort (off : Nat) (s : State) : Host.Outcome State Fault Refusal := s.act fun s => s.flashPort off

/- GPIO (R266, R267, R271). -/

/-- A masked write of register `r` (0 OUT_MLO, 1 OUT_MHI, 2 OE_MLO, 3 OE_MHI) of a bank through either view: a requester
that does not reach the block is refused. -/
def State.gpioWrite (s : State) (o : Origin) (secure : Bool) (bank r : Nat) (v : W32) : State :=
  let a := (if secure then 0x15_1002_8000 else 0x15_1002_0000) + 0x200 * bank + 4 * r
  if 8 ≤ bank then s
  else if o = .mgmt ∨ o = .jtag ∨ (o = .host ∧ !secure) then s.gpioMasked o a v
  else s.nocErr a stDenied (originCode o) 64

/-- OUT_MLO (R266). -/
def execOutMlo (origin : Origin) (secure : Bool) (bank : Nat) (value : W32) (s : State) : Host.Outcome State Fault Refusal :=
  s.act fun s => s.gpioWrite origin secure bank 0 value

/-- OUT_MHI (R266). -/
def execOutMhi (origin : Origin) (secure : Bool) (bank : Nat) (value : W32) (s : State) : Host.Outcome State Fault Refusal :=
  s.act fun s => s.gpioWrite origin secure bank 1 value

/-- OE_MLO (R266). -/
def execOeMlo (origin : Origin) (secure : Bool) (bank : Nat) (value : W32) (s : State) : Host.Outcome State Fault Refusal :=
  s.act fun s => s.gpioWrite origin secure bank 2 value

/-- OE_MHI (R266). -/
def execOeMhi (origin : Origin) (secure : Bool) (bank : Nat) (value : W32) (s : State) : Host.Outcome State Fault Refusal :=
  s.act fun s => s.gpioWrite origin secure bank 3 value

/-- PIN_INPUT (R267). -/
def execPinInput (pin : Nat) (level : Bool) (s : State) : Host.Outcome State Fault Refusal :=
  s.always fun s => if pin < 256 then s.pinInput pin level else s

/-- GLITCH_FILTER_EXPIRY (R267). -/
def execGlitchFilterExpiry (pin : Nat) (s : State) : Host.Outcome State Fault Refusal :=
  s.act fun s => s.pinFilter pin

/-- BANK_SUPPLY_CHANGE (R271). -/
def execBankSupplyChange (bank vdet : Nat) (s : State) : Host.Outcome State Fault Refusal :=
  s.always fun s => if bank < 8 then s.bankSupply bank vdet else s

end Sys2Proof.Machine
end

