-- ==== Sys2Proof/Machine/ExecLanes.lean ====
section
/-! DEFINITION. Commands of the native lanes and Aelbel Link (R311 to R328). A lane number above 143 names nothing. -/

namespace Sys2Proof.Machine

/-- An activity of one of the 144 lanes. -/
def State.ofLane (s : State) (lane : Nat) (f : State → State) : Host.Outcome State Fault Refusal :=
  s.act fun s => if lane < 144 then f s else s

/-- RAW_BLOCK_RECEIVE (R328). -/
def execRawBlockReceive (lane sync : Nat) (payload : W64) (s : State) : Host.Outcome State Fault Refusal :=
  s.ofLane lane fun s => s.rawRxBlock lane sync payload

/-- DETECT_POLL (R313). -/
def execDetectPoll (lane : Nat) (found : Bool) (s : State) : Host.Outcome State Fault Refusal :=
  s.ofLane lane fun s => s.detectPoll lane found

/-- TRAIN_COMPLETE (R313). -/
def execTrainComplete (lane : Nat) (s : State) : Host.Outcome State Fault Refusal :=
  s.ofLane lane fun s => s.trainComplete lane

/-- LOCK_COMPLETE (R313). -/
def execLockComplete (lane skew : Nat) (s : State) : Host.Outcome State Fault Refusal :=
  s.ofLane lane fun s => s.lockComplete lane skew

/-- STAGE_TIMEOUT (R315). -/
def execStageTimeout (lane passed : Nat) (s : State) : Host.Outcome State Fault Refusal :=
  s.ofLane lane fun s => s.stageTimeout lane passed

/-- CAP (R316). -/
def execCap (lane : Nat) (block : List Byte) (s : State) : Host.Outcome State Fault Refusal :=
  s.ofLane lane fun s => s.capBlockRx lane block

/-- ALIGN_BLOCK (R312). -/
def execAlignBlock (lane : Nat) (block : List Byte) (s : State) : Host.Outcome State Fault Refusal :=
  s.ofLane lane fun s => s.alignRx lane block

/-- SKIP (R312). -/
def execSkip (lane : Nat) (inserted deleted : Bool) (s : State) : Host.Outcome State Fault Refusal :=
  s.ofLane lane fun s => s.skipRx lane inserted deleted

/-- IDLE (R311): a control block with an acknowledgement field. -/
def execIdle (lane : Nat) (block : List Byte) (s : State) : Host.Outcome State Fault Refusal :=
  s.ofLane lane fun s => s.controlRx lane block

/-- AELBEL_FRAME (R321). -/
def execAelbelFrame (lane : Nat) (frame : List Byte) (s : State) : Host.Outcome State Fault Refusal :=
  s.ofLane lane fun s => s.frameRx lane frame

/-- REPLAY_TIMEOUT (R321). -/
def execReplayTimeout (lane : Nat) (s : State) : Host.Outcome State Fault Refusal := s.ofLane lane fun s => s.replay lane

/-- FRAME_TRANSMIT (R320). -/
def execFrameTransmit (lane : Nat) (s : State) : Host.Outcome State Fault Refusal :=
  s.ofLane lane fun s => s.frameTransmit lane

/-- CRC_ERROR_WINDOW (R317). -/
def execCrcErrorWindow (lane : Nat) (s : State) : Host.Outcome State Fault Refusal :=
  s.ofLane lane fun s => s.crcWindow lane

/-- RETRAIN (R317). -/
def execRetrain (lane : Nat) (s : State) : Host.Outcome State Fault Refusal :=
  s.ofLane lane fun s => s.beginRetrain lane

/-- LOCK_LOSS (R317). -/
def execLockLoss (lane : Nat) (longerThan1us : Bool) (s : State) : Host.Outcome State Fault Refusal :=
  s.ofLane lane fun s => s.lockLoss lane longerThan1us

/-- RETRAIN_COMPLETE (R317). -/
def execRetrainComplete (lane : Nat) (ok : Bool) (s : State) : Host.Outcome State Fault Refusal :=
  s.ofLane lane fun s => s.retrainComplete lane ok

/-- EIDLE (R324). -/
def execEidle (lane : Nat) (s : State) : Host.Outcome State Fault Refusal :=
  s.ofLane lane fun s => s.txRest lane 0 0xCC 1

/-- EIDLE_EXIT (R324). -/
def execEidleExit (lane : Nat) (s : State) : Host.Outcome State Fault Refusal := s.ofLane lane fun s => s.eidleExit lane

/-- SLEEP (R325). -/
def execSleep (lane : Nat) (s : State) : Host.Outcome State Fault Refusal :=
  s.ofLane lane fun s => s.txRest lane 1 0xCF 2

/-- SLEEP_WAKE (R325). -/
def execSleepWake (lane : Nat) (s : State) : Host.Outcome State Fault Refusal := s.ofLane lane fun s => s.sleepWake lane

/-- ADAPTATION_FREEZE (R323). -/
def execAdaptationFreeze (lane transitions : Nat) (s : State) : Host.Outcome State Fault Refusal :=
  s.ofLane lane fun s => s.adaptWindow lane transitions

/-- PCS_BLOCK_LOCK (R327). -/
def execPcsBlockLock (lane : Nat) (locked : Bool) (s : State) : Host.Outcome State Fault Refusal :=
  s.ofLane lane fun s => s.pcsLock lane locked

end Sys2Proof.Machine
end

