-- ==== Sys2Proof/Machine/Mldsa.lean ====
section
/-! DEFINITION. The verification of an ML-DSA-44 signature (FIPS 204), in its pure form with an empty context string (R278,
R415). The rules name the standard and do not repeat it: its algorithms and the values of this parameter set are the
standard's (log 18). A polynomial is the list of its 256 coefficients modulo q. -/

namespace Sys2Proof.Machine

/-- The modulus q. -/
def mlQ : Nat := 8380417

/-- A polynomial of zeros. -/
def mlZero : List Nat := List.replicate 256 0

/-- Numbers of `w` bits packed in a byte string, the first lowest. -/
def mlUnpack (w : Nat) : Nat → Nat → List Nat
  | 0, _ => []
  | n + 1, x => x % 2 ^ w :: mlUnpack w n (x / 2 ^ w)

/-- Numbers of `w` bits packed to one number. -/
def mlPack (w : Nat) : List Nat → Nat
  | [] => 0
  | a :: l => a + 2 ^ w * mlPack w l

/- The number-theoretic transform. Splitting a polynomial over X^256 + 1 in halves eight times makes a tree whose node
`m` at depth d, from 2^d on, uses the root 1753 to the bit-reversed power of m. -/

/-- The low `n` bits of a number in reverse. -/
def mlRev : Nat → Nat → Nat
  | 0, _ => 0
  | n + 1, x => x % 2 * 2 ^ n + mlRev n (x / 2)

/-- The root of a node, and its inverse: 1753 has order 512. -/
def mlRoot (m : Nat) : Nat := 1753 ^ mlRev 8 m % mlQ
def mlUnroot (m : Nat) : Nat := 1753 ^ (512 - mlRev 8 m) % mlQ

def mlAdd (a b : List Nat) : List Nat := List.zipWith (fun x y => (x + y) % mlQ) a b
def mlSub (a b : List Nat) : List Nat := List.zipWith (fun x y => (x + mlQ - y) % mlQ) a b
def mlMul (a b : List Nat) : List Nat := List.zipWith (fun x y => x * y % mlQ) a b
def mlScale (k : Nat) (a : List Nat) : List Nat := a.map fun x => k * x % mlQ

/-- The transform of what stands at a node with `n` levels below it. -/
def mlNttAt : Nat → Nat → List Nat → List Nat
  | 0, _, l => l
  | n + 1, m, l =>
    let a := l.take (2 ^ n)
    let b := mlScale (mlRoot m) (l.drop (2 ^ n))
    mlNttAt n (2 * m) (mlAdd a b) ++ mlNttAt n (2 * m + 1) (mlSub a b)

/-- Its inverse, but for a factor of 2 at each level. -/
def mlInvAt : Nat → Nat → List Nat → List Nat
  | 0, _, l => l
  | n + 1, m, l =>
    let a := mlInvAt n (2 * m) (l.take (2 ^ n))
    let b := mlInvAt n (2 * m + 1) (l.drop (2 ^ n))
    mlAdd a b ++ mlScale (mlUnroot m) (mlSub a b)

def mlNtt (l : List Nat) : List Nat := mlNttAt 8 1 l

/-- 8347681 is the inverse of 256 modulo q. -/
def mlInv (l : List Nat) : List Nat := mlScale 8347681 (mlInvAt 8 1 l)

/- Sampling. -/

/-- The numbers that `n` groups of three bytes spell, without the last one's top bit. -/
def mlTriples : Nat → List Byte → List Nat
  | 0, _ => []
  | n + 1, l => leNum l 0 3 % 2 ^ 23 :: mlTriples n (l.drop 3)

/-- The entry of the matrix in row `r` and column `c`, transformed: the first 256 numbers below q of a stream. Of 298, fewer
than 256 are never met. -/
def mlEntry (rho : List Byte) (r c : Nat) : List Nat :=
  ((mlTriples 298 (shake128 894 (rho ++ bytesOfNat 1 c ++ bytesOfNat 1 r))).filter fun x => decide (x < mlQ)).take 256

/-- The challenge polynomial: for each of the places 217 to 255 the next stream byte that does not exceed it, whose
coefficient moves there and gives way to 1, or to -1 where the place's sign bit is 1. -/
def mlBall : List Byte → Nat → Nat → List Nat → List Nat
  | [], _, _, c => c
  | b :: rest, i, signs, c =>
    if 256 ≤ i then c
    else if b.toNat ≤ i then
      mlBall rest (i + 1) (signs / 2) ((c.set i (c.getD b.toNat 0)).set b.toNat (if signs % 2 = 1 then mlQ - 1 else 1))
    else mlBall rest i signs c

def mlChallenge (seed : List Byte) : List Nat :=
  let s := shake256 272 seed
  mlBall (s.drop 8) 217 (leNum s 0 8) mlZero

/- Hints. -/

/-- Each number is greater than the one before. -/
def mlRising : List Nat → Bool
  | a :: b :: l => decide (a < b) && mlRising (b :: l)
  | _ => true

/-- The places that the 84 hint bytes name for `n` polynomials from polynomial `i` on, the first place standing at byte
`lo`; none where they are malformed. -/
def mlHints (y : List Byte) : Nat → Nat → Nat → Option (List (List Nat))
  | 0, _, lo => if allZero (sub y lo (80 - lo)) then some [] else none
  | n + 1, i, lo =>
    let hi := leNum y (80 + i) 1
    let ps := (sub y lo (hi - lo)).map (·.toNat)
    if lo ≤ hi ∧ hi ≤ 80 ∧ mlRising ps = true then (mlHints y n (i + 1) hi).map fun l => ps :: l else none

/-- The high part of a coefficient in steps of 190,464, corrected by its hint. -/
def mlHigh (hint : Bool) (r : Nat) : Nat :=
  let low := r % 190464
  let high := (r / 190464 + (if 95232 < low then 1 else 0)) % 44
  if !hint then high else if 0 < low ∧ low ≤ 95232 then (high + 1) % 44 else (high + 43) % 44

/-- The high parts of a polynomial as 192 bytes. -/
def mlHighs (hints : List Nat) (w : List Nat) : List Byte :=
  bytesOfNat 192 (mlPack 6 (w.zipIdx.map fun e => mlHigh (hints.contains e.2) e.1))

/- Verification. -/

/-- Polynomial `i` of the key's t1, ten bits a coefficient, times 2^13. -/
def mlT1 (key : List Byte) (i : Nat) : List Nat := mlScale 8192 (mlUnpack 10 256 (leNum key (32 + 320 * i) 320))

/-- The fields of the response's polynomial `i`: 2^17 less the coefficient. -/
def mlZ (sig : List Byte) (i : Nat) : List Nat := mlUnpack 18 256 (leNum sig (32 + 576 * i) 576)

/-- Every coefficient is smaller than 2^17 - 78. -/
def mlShort (z : List Nat) : Bool := z.all fun x => decide (78 < x ∧ x < 2 ^ 18 - 78)

/-- Row `r` of what the verifier rebuilds: A z - c t1, in transformed form `z` and `c`. -/
def mlRow (key : List Byte) (z : List (List Nat)) (c : List Nat) (r : Nat) : List Nat :=
  let az := (z.zipIdx.map fun e => mlMul (mlEntry (key.take 32) r e.2) e.1).foldl mlAdd mlZero
  mlInv (mlSub az (mlMul c (mlNtt (mlT1 key r))))

/-- The signature of a message is valid under a key. -/
def mlVerify (key msg sig : List Byte) : Bool :=
  match mlHints (sub sig 2336 84) 4 0 0 with
  | none => false
  | some hs =>
    let zs := (List.range 4).map (mlZ sig)
    let mu := shake256 64 (shake256 64 key ++ [0, 0] ++ msg)
    let c := mlNtt (mlChallenge (sig.take 32))
    let zt := zs.map fun z => mlNtt (z.map fun x => (mlQ + 2 ^ 17 - x) % mlQ)
    let w := hs.zipIdx.flatMap fun h => mlHighs h.1 (mlRow key zt c h.2)
    key.length == 1312 && sig.length == 2420 && zs.all mlShort && sig.take 32 == shake256 32 (mu ++ w)

end Sys2Proof.Machine
end

