-- ==== Sys2Proof/Machine/Health.lean ====
section
/-! DEFINITION. Faults contained (R130 to R135), defect counters sampled (R118, R169), the in-field BIST, retirement and
repair (R124 to R128, R386 to R388). -/

namespace Sys2Proof.Machine

/- Containment (R129 to R131). -/

/-- The 32-byte fault record (R131). -/
def faultRecord (f : Raised) (flags : Nat) : List Byte :=
  bytesOfNat 2 f.code ++ bytesOfNat 1 f.region ++ bytesOfNat 1 flags ++ bytesOfNat 1 f.tile ++ [0] ++
  bytesOfNat 2 f.cluster ++ bytesOfNat 8 f.ecycle ++ bytesOfNat 8 f.detail.toNat ++ bytesOfNat 8 f.time

/-- A resource marked suspect (R135, R387). -/
def State.suspect (s : State) (r : Resource) : State :=
  if s.health.suspects.contains r then s else { s with health := { s.health with suspects := s.health.suspects ++ [r] } }

/-- What an error says of the resource it came from (R135): the cluster of an ECC_UE, which is the spare where one replaces
the cluster the fault names, and the bank of a MEM_UE. -/
def State.suspectOf (s : State) (f : Raised) : State :=
  if f.code = 2 then s.suspect (.cluster f.tile (s.phys f.tile f.cluster))
  else if f.code = 6 ∧ 0x10_0000_0000 ≤ f.detail.toNat ∧ f.detail.toNat < 0x10_0800_0000 then
    s.suspect (.bank (bankOf f.detail.toNat).1 (bankOf f.detail.toNat).2)
  else s

/-- The event vector signalled: by the record itself where the queue was empty, else once more (R130, R404). -/
def State.faultEvent (s : State) (region : Nat) (record : List Byte) : State :=
  let s1 := s.event 1 region record
  if s.events.queue.isEmpty then s1 else s1.msix 16

/-- The record sent on in a cascade: to the master, or by the master to the other devices (R130). -/
def State.faultOnward (s : State) (record : List Byte) : State :=
  if !s.bitOf aCascStat 5 then s
  else if s.isMaster then s.mgmtSend (.haltScope record) else s.mgmtSend (.fault record)

/-- The oldest fault not yet contained: its scope becomes FAULTED, the record is queued and sent, the member of a pair
answers for an internal fault (R129 to R131, R355). -/
def State.contain (s : State) : State :=
  match s.raised with
  | [] => s
  | f :: rest =>
    let s0 := ({ s with raised := rest }).suspectOf f
    if f.code = 8 then
      (s0.internalFault 0xFF 0).faultEvent 0xFF (faultRecord f 1)
    else
      let m := f.region
      let halted := s.rgnState m != 0
      let others := (s.group m).any fun n => n != m && s.rgnState n != 0
      let record := faultRecord f (b2n f.internal + 2 * b2n halted + 4 * b2n others)
      let s1 := (s0.faultGroup m).faultEvent m record
      let s2 := s1.faultOnward record
      if f.internal then s2.internalFault m ((s.joinEcy m + f.ecycle) % 2 ^ 48) else s2

/-- A region has a route to or from another device: an X output entry it owns, or an entry fed from the X input (R106,
R129). -/
def State.crossDevice (s : State) (m : Nat) : Bool :=
  (tilesOf m).any fun t => (s.slots t).any fun x => x.out == 4 || x.srcPort == 0xF4

/-- A link group of this device belongs to the scope of another device's fault. It must have a route to another device;
whether that route leads to the scope, neither the record nor any state of the device says: free (log 96). A record of scope
None takes none. -/
def State.inScope (s : State) (record : List Byte) (m : Nat) : Bool :=
  let g := s.group m
  leNum record 0 2 != 8 && g.any s.crossDevice && Config.glueBit s.free (8192 + g.headD 0)

/-- A fault of another device reaches the master: the regions of its scope are halted and the other devices told (R130). What
the master has sent reaches a follower, which halts the regions of the scope. -/
def State.remoteFault (s : State) (record : List Byte) : State :=
  if record.length != 32 then s
  else
    let s1 := (s.forEach ((List.range 16).filter (s.inScope record)) State.faultGroup).draw
    if s.isMaster then (s1.event 1 (leNum record 2 1) record).mgmtSend (.haltScope record) else s1

/- Samples of the defect counters (R118, R169). -/

/-- Ports of a region's arrays whose ENDED is set: bit 8 × tile in region + port. -/
def State.endedMask (s : State) (m : Nat) : Nat :=
  (List.range 32).foldl (fun v i =>
    v + b2n (s.bitOf (aPortCfg ((tilesOf m).getD (i / 8) 0) (i % 8)) 32) * 2 ^ i) 0

/-- Sum of a counter over a region's four tiles, or over its clusters. -/
def sumTiles (m : Nat) (f : Nat → Nat) : Nat := (tilesOf m).foldl (fun n t => n + f t) 0

/-- One region's counters: IMAGE_DEFECT where any has risen since the last sample. -/
def State.sampleRegion (s : State) (m : Nat) : State :=
  if s.rgnState m ≠ 2 then s
  else
    let r := s.rgn m
    let ce := s.fldOf (aRgnCnt m) 32 16
    let mm := (s.members m).foldl (fun n tc => n + s.fldOf (aCluErr tc.1 tc.2) 16 16) 0
    let ind := sumTiles m fun t => s.fldOf (aArrCnt t) 32 16
    let dup := sumTiles m fun t => s.fldOf (aArrCnt t) 48 16
    let ended := s.endedMask m
    let newly := (List.range 32).foldl (fun v i =>
      v + (if ended.testBit i && !r.lastEnded.testBit i then 2 ^ i else 0)) 0
    let s1 := s.setRgn m { r with lastCeLate := ce, lastMmRange := mm, lastIndRange := ind, lastMnDup := dup, lastEnded := ended }
    let rise := fun (a b : Nat) => bytesOfNat 2 (min 0xFFFF (b - a))
    if r.lastCeLate < ce ∨ r.lastMmRange < mm ∨ r.lastIndRange < ind ∨ r.lastMnDup < dup ∨ newly ≠ 0 then
      s1.event 2 m (rise r.lastCeLate ce ++ rise r.lastMmRange mm ++ rise r.lastIndRange ind ++ rise r.lastMnDup dup ++
        bytesOfNat 8 newly)
    else s1

def State.sampleDefects (s : State) : State := s.forEach (List.range 16) State.sampleRegion

/- Resources (R124 to R128). -/

def resTile : Resource → Nat
  | .cluster t _ => t
  | .bank t _ => t
  | .array t => t

/-- The resource exists (R12, R171, R136). -/
def resExists : Resource → Bool
  | .cluster t c => decide (t < 64 ∧ c < 132)
  | .bank t b => decide (t < 64 ∧ b < 16)
  | .array t => decide (t < 64)

/-- The committed usage table of the resource's region lists it. A spare counts by the cluster it replaces. -/
def State.listed (s : State) (r : Resource) : Bool :=
  let u := (s.rgn (regionOfTile (resTile r))).usage
  match r with
  | .cluster t c => u.clusters.contains (t, s.nameOf t c)
  | .bank t b => u.banks.contains (t, b)
  | .array t => u.arrays.contains t

/-- The resource runs a schedule: listed by a RUNNING region. -/
def State.inUse (s : State) (r : Resource) : Bool :=
  s.listed r && s.rgnState (regionOfTile (resTile r)) == 2

/-- A free spare of a tile (R124). -/
def State.freeSpare (s : State) (t : Nat) : Option Nat :=
  (List.range 4).find? fun i => !s.bitOf (aCluRemap t i) 0 && !s.bitOf (aCluRemap t i) 8

/-- CAPACITY_LOST names the resource (R131). -/
def lostDetail : Resource → W64
  | .cluster _ c => BitVec.ofNat 64 (8 * c)
  | .bank _ b => BitVec.ofNat 64 (1 + 8 * b)
  | .array _ => 2

/-- CLUSTER of a fault record about a resource; 0xFFFF where it is none (R131). -/
def resCluster : Resource → Nat
  | .cluster _ c => c
  | _ => 0xFFFF

/-- A resource is lost: its region is DEGRADED for good, CAPACITY_CHANGED is queued, and a running region that lists it
faults (R125, R128). -/
def State.lose (s : State) (r : Resource) : State :=
  if s.health.lost.contains r then s
  else
    let m := regionOfTile (resTile r)
    let h := s.health
    let deg := h.degraded ||| 2 ^ m
    let seq := h.mapSeq + 1
    let h1 : Health := { h with lost := h.lost ++ [r], mapSeq := seq, degraded := deg }
    let s1 : State := { s with health := h1 }
    let s2 := s1.event 3 m (bytesOfNat 4 seq ++ bytesOfNat 2 deg)
    if s.inUse r then s2.raise 4 m (resTile r) (resCluster r) (lostDetail r) true else s2

/- Repair (R386 to R388). -/

/-- Address ranges of a physical cluster's memories: base and length. -/
def cluRanges (t pc : Nat) : List (Nat × Nat) :=
  cluMems.map fun m => ((if pc < 128 then m.base + m.per * (128 * t + pc) else m.spare + m.per * (4 * t + (pc - 128))), m.per)

/-- A range of memory copied, with its error state; bytes at their default stay unlisted. -/
def State.copyMem (s : State) (src dst n : Nat) : State :=
  let from_ := s.mem.filter fun e => decide (src ≤ e.1 ∧ e.1 < src + n)
  let errs := s.ecc.filter fun e => decide (src ≤ e.1 ∧ e.1 < src + n)
  let s1 := s.clearMem dst n
  let s2 := s1.forEach from_ fun s e => s.putMem (dst + (e.1 - src)) [e.2]
  let clean := mapDropIf (fun k => decide (dst ≤ k ∧ k < dst + n)) s2.ecc
  { s2 with ecc := errs.foldl (fun m e => mapSet (fun _ => 0) m (dst + (e.1 - src)) e.2) clean }

/-- A remap applied (R60, R387): the cluster's memories, its memory-model windows among them (R33), copied to the lowest
free spare, then VALID. -/
def State.applyRemap (s : State) (t c : Nat) : State :=
  match s.freeSpare t with
  | none => s
  | some i =>
    let old := s.phys t c
    let s1 := s.forEach ((cluRanges t old).zip (cluRanges t (128 + i))) fun s x => s.copyMem x.1.1 x.2.1 x.1.2
    let s2 := s1.forEach (List.range 4) fun s n => s.setReg (aMmw t (128 + i) n) (s.reg (aMmw t old n))
    let s3 := if 128 ≤ old then s2.setBit (aCluRemap t (old - 128)) 0 false else s2
    let s4 := s3.setReg (aCluRemap t i) (putFld (putFld (s3.reg (aCluRemap t i)) 0 1 1) 1 7 c)
    ({ s4 with health := { s4.health with remaps := s4.health.remaps.filter (· != (t, c)) } }).mapNote t (s.sparesFree t)

/-- The remaps of a region that wait are applied: at its fence, at STOP, before a commit (R387). -/
def State.applyRemaps (s : State) (m : Nat) : State :=
  s.forEach (s.health.remaps.filter fun tc => regionOfTile tc.1 == m) fun s tc => s.applyRemap tc.1 tc.2

/-- A cluster is retired (R387): remapped to a free spare in due time, or lost. -/
def State.retireCluster (s : State) (t c : Nat) : State :=
  if s.health.remaps.contains (t, c) then s
  else match s.freeSpare t with
  | none => s.lose (.cluster t c)
  | some _ =>
    let s1 : State := { s with health := { s.health with remaps := s.health.remaps ++ [(t, c)] } }
    if s.inUse (.cluster t c) then
      s1.event 9 (regionOfTile t) (bytesOfNat 1 0 ++ bytesOfNat 1 t ++ bytesOfNat 2 c)
    else s1

/-- A resource whose BIST has failed is retired (R387). A retired spare sets BIST_FAIL; the cluster it replaced needs
another. -/
def State.retire (s : State) (r : Resource) : State :=
  match r with
  | .cluster t c =>
    if c < 128 then s.retireCluster t c
    else
      let a := aCluRemap t (c - 128)
      let s1 := (s.setBit a 8 true).mapNote t (s.sparesFree t)
      if s.nameOf t c < 128 then s1.retireCluster t (s.nameOf t c) else s1
  | .bank _ _ => s.lose r
  | .array _ => s.lose r

/-- The memories of a unit: base and length. -/
def unitRanges : Resource → List (Nat × Nat)
  | .cluster t c => cluRanges t c
  | .bank t b => [(bankBase t b, 0x2_0000)]
  | .array t => [(arrBase t, 0x1_A600)]

/-- The unit is tested now: it exists, is not in use, a bank is ON, a spare is free (R386). -/
def State.testable (s : State) (r : Resource) : Bool :=
  resExists r && !s.inUse r &&
  (match r with
   | .bank t b => s.bankState t b == 0
   | .cluster t c => c < 128 || !s.bitOf (aCluRemap t (c - 128)) 0 || s.health.suspects.contains r
   | .array _ => true)

/-- The march test of one unit: it keeps the contents; it fails where a byte no longer takes a write (log 10). -/
def State.bist (s : State) (r : Resource) : State :=
  if !s.testable r then s
  else
    let bad := (unitRanges r).any fun x => s.defects.any fun a => decide (x.1 ≤ a ∧ a < x.1 + x.2)
    let s1 : State := { s with health := { s.health with suspects := s.health.suspects.filter (· != r) } }
    let s2 := match r with
      | .cluster t c => if 128 ≤ c then (s1.setBit (aCluRemap t (c - 128)) 8 bad).mapNote t (s.sparesFree t) else s1
      | _ => s1
    if bad then s2.retire r else s2

/-- Corrected errors counted since the last look, hourly: a rise of 16 makes a resource suspect (R387). -/
def State.ceLook (s : State) (key now : Nat) (r : Resource) : State :=
  let old := mapGet (fun _ => 0) s.health.ceSeen key
  let s1 : State := { s with health := { s.health with ceSeen := mapSet (fun _ => 0) s.health.ceSeen key now } }
  if old + 16 ≤ now then s1.suspect r else s1

/-- The hourly measurement of a tile (R384, R387). -/
def State.hourly (s : State) (t ppm : Nat) : State :=
  if 64 ≤ t then s
  else
    let s1 := s.agingMeasure t ppm
    let s2 := s1.forEach (List.range 132) fun s c =>
      s.ceLook (2 ^ 48 + cluKey t c) (s.fldOf (aCluErr t c) 0 16) (.cluster t c)
    (s2.ceLook (2 ^ 49 + t) (s2.fldOf (aSpErr t) 0 16) (.bank t (s2.fldOf (aSpErr t) 16 4))).ceLook (2 ^ 50 + t)
      (s2.fldOf (aArrErr t) 0 16) (.array t)

/-- A DRAM row that waits, named by its first byte, is repaired where its granule is owned by no RUNNING region (R388): its words take writes
again, or, with the channel's repair resources exhausted, the granule is withdrawn (log 7). -/
def State.repairRow (s : State) (a : Nat) : State :=
  let o := s.ownerOf a
  if o < 16 ∧ s.rgnState o = 2 then s
  else
    let h := { s.health with rows := s.health.rows.filter (· != a) }
    if Config.glueBit s.free 2048 then
      { s.draw with health := { h with withdrawn := (h.withdrawn.filter (· != a / 0x400_0000)) ++ [a / 0x400_0000] } }
    else { s.draw with health := h, defects := s.defects.filter fun d => decide (0x10_0000_0000 ≤ d) || rowOf d != a }

/-- Every row that waits, at REPAIR or STOP. -/
def State.repairRows (s : State) : State := s.forEach s.health.rows State.repairRow

/-- The capacity map (R126). -/
def State.capacityMap (s : State) : List Byte :=
  let lost := fun (r : Resource) => s.health.lost.contains r
  let mask := fun (n : Nat) (f : Nat → Bool) => (List.range n).foldl (fun v i => v + b2n (f i) * 2 ^ i) 0
  ascii "ZCAP" ++ bytesOfNat 2 1 ++ bytesOfNat 2 (if s.part.speed15 then 256 else 208) ++ bytesOfNat 4 s.health.mapSeq ++
  bytesOfNat 2 s.health.degraded ++ zeros 2 ++
  (List.range 64).flatMap fun t =>
    bytesOfNat 16 (mask 128 fun c => !lost (.cluster t c)) ++ bytesOfNat 1 (s.sparesFree t) ++
    bytesOfNat 1 (b2n (!lost (.array t))) ++ bytesOfNat 2 (mask 16 fun b => !lost (.bank t b)) ++ zeros 12

/- Commands. -/

/-- FAULT_CONTAINMENT (R130): the firmware contains the oldest fault. -/
def execFaultContainment (s : State) : Host.Outcome State Fault Refusal :=
  s.act fun s => if s.pwr.firmware then s.contain else s

/-- CASCADE_FAULT_MESSAGE (R130). -/
def execCascadeFaultMessage (record : List Byte) (s : State) : Host.Outcome State Fault Refusal :=
  s.act fun s => s.remoteFault record

/-- DEFECT_SAMPLE (R118). -/
def execDefectSample (s : State) : Host.Outcome State Fault Refusal :=
  s.act fun s => if s.pwr.firmware then s.sampleDefects else s

/-- BIST_PASS (R386). -/
def execBistPass (unit : Resource) (s : State) : Host.Outcome State Fault Refusal :=
  s.act fun s => if s.pwr.firmware then s.bist unit else s

/-- AGING_MEASURE (R384). -/
def execAgingMeasure (tile shiftPpm : Nat) (s : State) : Host.Outcome State Fault Refusal :=
  s.act fun s => if s.pwr.firmware then s.hourly tile shiftPpm else s

end Sys2Proof.Machine
end

