-- ==== Sys2Proof/Machine/Tap.lean ====
section
/-! DEFINITION. The TAP (R431 to R435): instructions, boundary scan, the debug access. -/

namespace Sys2Proof.Machine

/-- The JTAG functions are open (R422, R425). -/
def State.jtagOpen (s : State) : Bool := decide (s.sec.lifecycle < 2) || s.sec.unlocked

/-- The boundary-scan instructions that drive pins may be used (R433). -/
def State.pinsOpen (s : State) : Bool := s.jtagOpen && s.jtagScope 3 && (s.devState == 0 || s.devState == 3)

/-- An instruction takes effect, and every pad takes what it or the registers give it. -/
def State.tapIr (s : State) (ir dr bits : Nat) : State :=
  let was := s.tap.ir
  let s1 : State := { s with tap := { s.tap with ir, dr, drBits := bits } }
  let drives := fun (i : Nat) => 3 ≤ i ∧ i ≤ 7
  if drives was ∨ drives ir then
    s1.forEach (List.range 256) fun s p => if (s.tapDrive p).isNone && s.pinFrozen p then s else s.drivePad p
  else s1

/-- The TAP returns to BYPASS (R433). -/
def State.tapBypass (s : State) : State := s.tapIr 0xFF 0 1

/-- IDCODE of the part (R432). -/
def idcodeOf (p : Part) : Nat := p.stepping * 2 ^ 28 + 0x9640 * 2 ^ 12 + 0x3A6 * 2 + 1

/-- DBG_STATUS (R432). -/
def State.dbgStatusWord (s : State) : Nat :=
  s.sec.lifecycle + 8 * b2n s.sec.unlocked + 16 * (if s.sec.unlocked then s.sec.scope % 16 else 0) + 256 * b2n s.tap.busy

/-- SAMPLE/PRELOAD (R432): the boundary-scan register takes the pads as they stand, or the cells that are shifted in. -/
def State.samplePins (s : State) (preload : Option (List (Nat × Bool × Bool))) : State :=
  let cells := match preload with
    | some l => l
    | none => (List.range 256).map fun p => (p, s.padLevel p, (s.pad p).oe)
  ({ s with tap := { s.tap with bsr := cells } }).tapIr 2 0 0

/-- One of the instructions that drive pins: refused, it acts as BYPASS (R433). -/
def State.pinInstr (s : State) (code bits : Nat) : State :=
  if s.pinsOpen then s.tapIr code 0 bits else s.tapBypass

/-- The unlocked SCOPE reaches an address (R435). -/
def State.scopeReaches (s : State) (a : Nat) : Bool :=
  let off := a % 0x10_0000
  let tile := decide (0x15_0000_0000 ≤ a ∧ a < 0x15_0400_0000)
  (s.jtagScope 0 && !decide (0x16_0000_0000 ≤ a ∧ a < 0x16_0004_0000) &&
    !decide (0x17_0000_0000 ≤ a ∧ a < 0x17_0040_0000)) ||
  (s.jtagScope 1 && (decide (0x15_100A_0000 ≤ a ∧ a < 0x15_100B_0000) || (tile && off == 0xD030))) ||
  (s.jtagScope 2 && (decide (0x15_100B_0000 ≤ a ∧ a < 0x15_100C_0000) ||
    (tile && (off == 0xF100 || off == 0xF108 || off == 0xF110 || off == 0xF300 || off == 0xF308)))) ||
  (s.jtagScope 3 && decide (0x15_1002_0000 ≤ a ∧ a < 0x15_1002_1000))

/-- An access that is not performed: ERR 1 with STATUS DENIED (R435). -/
def State.tapDenied (s : State) : State :=
  { s with tap := { s.tap with err := true, status := stDenied, poison := false } }

/-- What Capture-DR of DBG_ACCESS loads (R434): the outcome of the latest completed command, with ACCESS_BUSY in place of ERR
while a command is under way. -/
def State.dbgOutcome (s : State) : Nat :=
  s.tap.data.toNat * 2 ^ 52 + b2n (if s.tap.busy then true else s.tap.err) * 2 ^ 116 + s.tap.status % 8 * 2 ^ 117 + b2n s.tap.poison * 2 ^ 120

/-- Update-DR of DBG_ACCESS (R434): one packet-network request with ORIGIN JTAG. -/
def State.dbgAccess (s : State) (cmd size addr : Nat) (data : W64) : State :=
  if !s.jtagOpen then s.tapBypass.tapDenied
  else
    let s1 := s.tapIr 0x10 s.dbgOutcome 121
    let n := 2 ^ (size % 4)
    if cmd ≠ 1 ∧ cmd ≠ 2 then s1
    else if !s.scopeReaches addr then s1.tapDenied
    else
      let (dn, _) := targetOf s.part 0 addr
      let r := s1.sendReq (ioNode dn) 3 .jtag (cmd == 2) (addr % 2 ^ 48) n (bytesOfNat n data.toNat) s.pos .jtag
      if r.2 then { r.1 with tap := { r.1.tap with busy := true } } else s1

/-- An unlock ends (R425): JTAG access closes, pins owned by DEBUG return to OWNER NONE, and the TAP to BYPASS. -/
def State.endUnlock (s : State) : State :=
  if !s.sec.unlocked then s
  else
    let s1 : State := { s with sec := { s.sec with unlocked := false, scope := 0 } }
    (s1.forEach ((List.range 256).filter fun p => s.pinOwner p == 6) State.freePin).tapBypass

/- Commands. The TAP has no part in device reset (R431): its instructions act in every state of the part. -/

/-- TAP_RESET (R431): the instruction register selects IDCODE, as IEEE 1149.1 has it, and the pads take what their
registers give them (log 25). -/
def execTapReset (s : State) : Host.Outcome State Fault Refusal := s.always fun s => s.tapIr 1 (idcodeOf s.part) 32

/-- IDCODE (R432). -/
def execIdcode (s : State) : Host.Outcome State Fault Refusal := s.always fun s => s.tapIr 1 (idcodeOf s.part) 32

/-- SAMPLE/PRELOAD (R432). -/
def execSamplePreload (preload : Option (List (Nat × Bool × Bool))) (s : State) : Host.Outcome State Fault Refusal :=
  s.always fun s => s.samplePins preload

/-- EXTEST (R433). -/
def execExtest (s : State) : Host.Outcome State Fault Refusal := s.always fun s => s.pinInstr 3 0

/-- EXTEST_PULSE (R433). -/
def execExtestPulse (s : State) : Host.Outcome State Fault Refusal := s.always fun s => s.pinInstr 4 0

/-- EXTEST_TRAIN (R433). -/
def execExtestTrain (s : State) : Host.Outcome State Fault Refusal := s.always fun s => s.pinInstr 5 0

/-- CLAMP (R433). -/
def execClamp (s : State) : Host.Outcome State Fault Refusal := s.always fun s => s.pinInstr 6 1

/-- HIGHZ (R433). -/
def execHighz (s : State) : Host.Outcome State Fault Refusal := s.always fun s => s.pinInstr 7 1

/-- DBG_ACCESS (R434). -/
def execDbgAccess (cmd size addr : Nat) (data : W64) (s : State) : Host.Outcome State Fault Refusal :=
  s.act fun s => s.dbgAccess cmd size addr data

/-- DBG_STATUS (R432). -/
def execDbgStatus (s : State) : Host.Outcome State Fault Refusal := s.always fun s => s.tapIr 0x11 s.dbgStatusWord 32

/-- BYPASS (R432). -/
def execBypass (s : State) : Host.Outcome State Fault Refusal := s.always State.tapBypass

/-- UNLOCK_EXPIRY (R425). -/
def execUnlockExpiry (s : State) : Host.Outcome State Fault Refusal := s.act State.endUnlock

end Sys2Proof.Machine
end

