-- ==== Sys2Proof/Machine/Startup.lean ====
section
/-! DEFINITION. Supplies, reset and start-up (R205, R373 to R376, R429, R430, R32): what a device reset leaves, what causes
one, and its release. -/

namespace Sys2Proof.Machine

/- The boot record (R412). -/

/-- The boot record that flash holds, when its CRC, MAGIC and FORMAT are right; else none of it. -/
def State.flashRecord (s : State) : List Byte :=
  let b := s.bytes 0x17_0000_0000 256
  if b.take 4 = ascii "ZBRC" ∧ leNum b 4 2 = 1 ∧ leNum b 252 4 = crc32 (b.take 252) then b else []

/-- The boot record in force: the one that the latest device reset found, with every field 0 where it failed its checks. -/
def State.bootRecord (s : State) : List Byte := (s.sec.boot ++ zeros 256).take 256

/-- A bit of a 256-bit field of the boot record. -/
def pinBit (b : List Byte) (off p : Nat) : Bool := (b.getD (off + p / 8) 0).getLsbD (p % 8)

/-- FLAGS of the boot record: 0 AUTOSTART, 1 REF_SPREAD, 2 TAMPER_EN. -/
def State.bootFlag (s : State) (i : Nat) : Bool := (leNum s.bootRecord 16 4).testBit i

/- What a device reset leaves (R11, R375; log 9). -/

/-- The address lies in embedded flash. -/
def inFlash (a : Nat) : Bool := decide (0x17_0000_0000 ≤ a ∧ a < 0x17_0040_0000)

/-- Registers that the repair map in flash restores: CLU_REMAP, and TILE_AGE but for its MEAS_CNT (R374, R390). -/
def keptReg (a : Nat) : Bool :=
  decide (0x15_0000_0000 ≤ a ∧ a < 0x15_0400_0000) &&
  (decide (0xA100 ≤ a % 0x10_0000 ∧ a % 0x10_0000 < 0xA120) || a % 0x10_0000 == 0xF208)

/-- The repair map as the registers stand; before the firmware has restored them, as it was. -/
def State.keptNow (s : State) : Map W64 :=
  let l := (s.regs.filter fun e => keptReg e.1).map fun e => (e.1, if e.1 % 0x10_0000 = 0xF208 then putFld e.2 16 16 0 else e.2)
  if l.isEmpty then s.health.kept else l

/-- CASC_STAT as the straps give it (R337, R361). -/
def strapWord (p : Part) : W64 := BitVec.ofNat 64 (p.cascId % 16 + 16 * b2n p.masterLow)

/-- Registers after a device reset: those of the VDD_AON domain as they were, the strap fields as they stand, every other at
its reset value, BANK_STAT's VDET among them (R11, R263). -/
def State.regsAfterReset (s : State) : Map W64 :=
  mapSet regReset (mapDropIf (fun a => decide (regDomain a ≠ .aon)) s.regs) aCascStat (strapWord s.part)

/-- Clocks after a device reset: the default settings of the part's speed grade (R5, R363). -/
def resetClk (p : Part) : Clk :=
  let l := clockRow p.speed15 0
  { step2 := l.getD 0 8, noc2 := l.getD 1 16, glue2 := l.getD 2 32, pbus2 := l.getD 3 48 }

/-- Pads after a device reset: the levels outside stay, nothing is driven; the latch of R376 keeps each pad's PULL. -/
def State.padsAfterReset (s : State) : Map Pin :=
  s.glue.pads.foldl (fun m e => mapSet (fun _ => ({} : Pin)) m e.1
    { level := e.2.level, pull := if s.pwr.padsReleased then 2 else e.2.pull }) []

/-- The device held in reset: what embedded flash, the fuses of the security record, the VDD_AON domain, the TAP and the
world outside hold stays; everything else is as State.reset has it (R375). -/
def State.held (s : State) : State :=
  let s1 := s.endUnlock
  let h := s1.health
  let c := s1.sec
  { State.reset with
    pending := s1.pending, part := s1.part, free := s1.free,
    mem := s1.mem.filter fun e => inFlash e.1,
    ecc := s1.ecc.filter fun e => inFlash e.1,
    defects := s1.defects, transients := s1.transients,
    regs := s1.regsAfterReset,
    events := { msix := s1.events.msix },
    host := { cpls := s1.host.cpls, writes := s1.host.writes, aer := s1.host.aer },
    glue := { pads := s1.padsAfterReset, flashOut := s1.glue.flashOut, rawTx := s1.glue.rawTx },
    clk := resetClk s1.part,
    pwr := { s1.pwr with inReset := true, wiped := false, firmware := false, started := false },
    tap := { s1.tap with busy := false },
    casc := { outbox := s1.casc.outbox },
    health := { lost := h.lost, remaps := h.remaps, rows := h.rows, withdrawn := h.withdrawn, mapSeq := h.mapSeq,
                degraded := h.degraded, kept := s1.keptNow },
    sec := { c with fallback := false, fwVersion := 0, fwSvn := 0, fwHash := [], challenge := none, unlocked := false,
                    scope := 0, boot := s1.flashRecord } }

/-- A device reset with its bit of RESET_CAUSE (R375, R389). -/
def State.deviceReset (s : State) (cause : Nat) : State := (s.held).setBit aResetCause cause true

/-- The registers of the VDD_AON domain at their reset values: VDD_AON has risen (R389, R430). -/
def State.aonRise (s : State) : State := s.resetRegs fun d => decide (d = .aon)

/- Supplies and the reference clock (R373, R376). -/

/-- A rail has become good; the detectors wait without HREFCLK. -/
def State.railGood (s : State) (rail : Nat) : State :=
  if rail < 10 ∧ s.pwr.href = true then
    let s1 := if rail = 9 ∧ s.pwr.rails / 512 % 2 = 0 then s.aonRise else s
    { s1 with pwr := { s1.pwr with rails := s1.pwr.rails ||| 2 ^ rail } }
  else s

/-- A rail has left good for 1 µs. -/
def State.railLoss (s : State) (rail : Nat) : State :=
  if rail < 10 ∧ s.pwr.rails / 2 ^ rail % 2 = 1 then
    let s1 : State := { s with pwr := { s.pwr with rails := s.pwr.rails - 2 ^ rail } }
    (s1.deviceReset 2).setFld aResetCause 6 4 rail
  else s

def State.hrefLoss (s : State) : State :=
  if s.pwr.href then ({ s with pwr := { s.pwr with href := false, padsReleased := false } }).deviceReset 3 else s

/- Release (R374). -/

/-- A pin as the boot record names it: SECURE, with a pull-up. -/
def State.bootPin (s : State) (b : List Byte) (p : Nat) : State :=
  let s1 := if pinBit b 24 p then (s.setFld (aPinCfg p) 4 3 5).setClaim 0 p 2 else s
  if pinBit b 56 p then s1.setFld (aPinCfg p) 12 2 1 else s1

/-- The release point: every rail good, PORST_N and PERST_N high, HREFCLK present, and no trip's cause standing. The pads'
latch lets go, and the boot record's pins and management links take effect. -/
def State.release (s : State) : State :=
  if s.pwr.inReset && s.pwr.rails == 1023 && s.pwr.href then
    let p := { s.pwr with inReset := false, porstN := true, perstN := true, tamperN := true, tempTrip := false,
                          padsReleased := true }
    let b := s.bootRecord
    let s1 : State := { s with pwr := p }
    let s2 := (s1.forEach (List.range 256) fun s p => s.bootPin b p).drivePads
    s2.forEach (List.range 4) fun s i =>
      let r := linkRecOf (sub b (88 + 16 * i) 16)
      if r.mode = 1 then s.bringUp r true else s
  else s

/-- The Mast has locked: every clock switches to it, at the default dividers of the speed grade (R5, R371, R374). -/
def State.mastLock (s : State) : State :=
  if s.pwr.href then
    (s.setRow (clockRow s.part.speed15 s.level)).setReg aMastStat
      (putFld (putFld (s.reg aMastStat) 0 2 1) 4 1 (b2n (s.bootFlag 1)))
  else s

/-- Every word of the secure SRAM zero, with valid check bits (R205). -/
def State.wipe (s : State) : State :=
  let s1 := s.clearMem 0x16_0000_0000 0x4_0000
  { s1 with ecc := mapDropIf (fun k => decide (0x16_0000_0000 ≤ k ∧ k < 0x16_0004_0000)) s1.ecc,
            pwr := { s1.pwr with wiped := true } }

/- Tamper (R429). -/

/-- TAMPER_STAT with one more trip of a source. -/
def tamperWord (v : W64) : TamperSource → W64
  | .pin => putFld (putFld v 0 1 1) 16 16 (satAdd 16 (fld v 16 16) 1)
  | .volt r => putFld (putFld (putFld v 1 1 1) 4 4 r) 16 16 (satAdd 16 (fld v 16 16) 1)
  | .temp => putFld (putFld v 2 1 1) 16 16 (satAdd 16 (fld v 16 16) 1)
  | .glitch => putFld (putFld v 3 1 1) 16 16 (satAdd 16 (fld v 16 16) 1)

/-- The source is watched: TAMPER_N under TAMPER_EN, the voltage of the first three rails. -/
def State.watched (s : State) : TamperSource → Bool
  | .pin => s.bootFlag 2
  | .volt r => decide (r < 3)
  | _ => true

/-- A tamper source trips: the wipe, safe pads, the unlock's end, the latch in TAMPER_STAT, and a device reset held while
the cause stands. -/
def State.tamper (s : State) (src : TamperSource) : State :=
  if s.watched src then
    let v := tamperWord (s.reg aTamperStat) src
    let s1 := (s.wipe.setReg aTamperStat v).deviceReset 5
    { s1 with
      pwr := { s1.pwr with tamperN := s1.pwr.tamperN && decide (src ≠ .pin), tempTrip := s1.pwr.tempTrip || decide (src = .temp) }
      sec := { s1.sec with tamperRec := some (bytesOfNat 8 v.toNat) } }
  else s

/- Commands. -/

/-- PORST_N (R375, R337): a device reset; at its release the straps are latched anew. -/
def execPorstN (cascId : BitVec 4) (masterN : Bool) (s : State) : Host.Outcome State Fault Refusal :=
  s.always fun s =>
    let p := { s.part with cascId := cascId.toNat, masterLow := !masterN }
    (({ s with part := p, pwr := { s.pwr with porstN := false } } : State)).deviceReset 0

/-- PERST_N (R375). -/
def execPerstN (s : State) : Host.Outcome State Fault Refusal :=
  s.always fun s => (({ s with pwr := { s.pwr with perstN := false } } : State)).deviceReset 1

/-- RAIL_GOOD (R373). -/
def execRailGood (rail : Nat) (s : State) : Host.Outcome State Fault Refusal := s.always fun s => s.railGood rail

/-- RAIL_LOSS (R375). -/
def execRailLoss (rail : Nat) (s : State) : Host.Outcome State Fault Refusal := s.always fun s => s.railLoss rail

/-- HREFCLK_LOSS (R376). -/
def execHrefclkLoss (s : State) : Host.Outcome State Fault Refusal := s.always State.hrefLoss

/-- HREFCLK_PRESENT (R374). -/
def execHrefclkPresent (s : State) : Host.Outcome State Fault Refusal :=
  s.always fun s => { s with pwr := { s.pwr with href := true } }

/-- RESET_RELEASE (R374). -/
def execResetRelease (s : State) : Host.Outcome State Fault Refusal := s.always State.release

/-- MAST_LOCK (R362, R374). -/
def execMastLock (s : State) : Host.Outcome State Fault Refusal := s.act State.mastLock

/-- MAST_LOCK_LOSS (R375). -/
def execMastLockLoss (s : State) : Host.Outcome State Fault Refusal :=
  s.always fun s => if s.locked then s.deviceReset 4 else s

/-- SECURE_SRAM_WIPE (R205). -/
def execSecureSramWipe (s : State) : Host.Outcome State Fault Refusal := s.act State.wipe

/-- TAMPER_TRIP (R429). -/
def execTamperTrip (source : TamperSource) (s : State) : Host.Outcome State Fault Refusal :=
  s.always fun s => s.tamper source

/-- LOCKSTEP_MISMATCH (R32): the management complex is reset; commands in progress wait for the restart. -/
def execLockstepMismatch (s : State) : Host.Outcome State Fault Refusal :=
  s.act fun s =>
    if s.pwr.firmware then
      let s1 : State := { s with pwr := { s.pwr with firmware := false } }
      s1.raise 8 0xFF 0xFF 0xFFFF 0 true
    else s

end Sys2Proof.Machine
end

