-- ==== Sys2Proof/Machine/Image.lean ====
section
/-! DEFINITION. Personality images (R273 to R279): their layout, checks 1 to 7 of R285, and the records of the sections. -/

namespace Sys2Proof.Machine

/- Layout (R273 to R275). -/

def imKind (b : List Byte) : Nat := leNum b 6 1
def imPos (b : List Byte) : Nat := leNum b 7 1
def imMask (b : List Byte) : Nat := leNum b 12 4
def imTotal (b : List Byte) : Nat := leNum b 16 8
def imCount (b : List Byte) : Nat := leNum b 24 2
def imKeySel (b : List Byte) : Nat := leNum b 26 1
def imBuild (b : List Byte) : List Byte := sub b 32 16
def imHashOff (b : List Byte) : Nat := leNum b 48 8

/-- A section: its number, type, region, place and body. -/
structure Sect where
  idx : Nat
  type_ : Nat
  region : Nat
  off : Nat
  body : List Byte
  deriving DecidableEq, Repr

/-- The sections, in directory order. -/
def imSects (b : List Byte) : List Sect :=
  (List.range (imCount b)).map fun i =>
    let e := sub b (64 + 32 * i) 32
    { idx := i, type_ := leNum e 0 2, region := leNum e 2 2, off := leNum e 8 8, body := sub b (leNum e 8 8) (leNum e 16 8) }

/-- A body put into its place among bodies in order of offset, then length. -/
def insertBody (x : Nat × Nat) : List (Nat × Nat) → List (Nat × Nat)
  | [] => [x]
  | y :: l => if x.1 < y.1 ∨ (x.1 = y.1 ∧ x.2 ≤ y.2) then x :: y :: l else y :: insertBody x l

/-- Bodies in order of their place, as (offset, length). -/
def imBodies (b : List Byte) : List (Nat × Nat) :=
  ((List.range (imCount b)).map fun i => (leNum b (72 + 32 * i) 8, leNum b (80 + 32 * i) 8)).foldr insertBody []

/-- From `pos` on, bodies follow without overlap and every byte between them up to `stop` is 0. -/
def bodiesApart (b : List Byte) (stop : Nat) : Nat → List (Nat × Nat) → Bool
  | pos, [] => decide (pos ≤ stop) && allZero (sub b pos (stop - pos))
  | pos, (o, n) :: rest =>
    o % 64 == 0 && decide (pos ≤ o) && allZero (sub b pos (o - pos)) && bodiesApart b stop (o + n) rest

/- Checks 1 to 7 (R285). -/

/-- Check 1: the trailer, the CRC and R273. -/
def imFramed (b : List Byte) : Bool :=
  let total := b.length
  let n := imCount b
  let h := imHashOff b
  decide (64 + 3748 ≤ total) && imTotal b == total && leNum b (total - 16) 8 == total &&
  sub b (total - 4) 4 == ascii "ZEND" && leNum b (total - 8) 4 == crc32 (b.take (total - 8)) &&
  total == h + 32 * n + 3748 && h % 64 == 0 && bodiesApart b h (64 + 32 * n) (imBodies b)

/-- Check 3: PART, stepping, grades and position (R6, R274). -/
def State.imMatches (s : State) (b : List Byte) : Bool :=
  let g := leNum b 11 1
  let p := s.part
  leNum b 8 2 == 0x9640 && (leNum b 10 1).testBit p.stepping && g.testBit (if p.speed15 then 0 else 1) &&
  g.testBit (if p.gradeX then 3 else 2) && g.testBit (if p.dram64 then 4 else 5) &&
  (imPos b == s.pos || (imPos b == 0xFF && imKind b == 2))

/-- Types of the sections that an image must hold for a region (R276). -/
def neededTypes (m : Nat) : List Nat := if m < 16 then [0x0001, 0x0002, 0x0010, 0x0011, 0x0012, 0x0030] else [0x0040]

/-- The types of R276 that a container lacks. -/
def sectTypes : List Nat := [0x0001, 0x0002, 0x0010, 0x0011, 0x0012, 0x0013, 0x0020, 0x0030, 0x0040, 0x0050, 0x0051, 0x0060]

/-- No two elements are equal. -/
def distinct (l : List Nat) : Bool := decide (l.Pairwise (· ≠ ·))

/-- Check 4, but for what the committing command asks: KIND as declared, SECTION_COUNT, REGION_MASK, TYPEs, sections
required (R274, R276). -/
def imShaped (b : List Byte) (declared : Nat) : Bool :=
  let l := imSects b
  decide (imKind b ≤ 2) && imKind b == declared && decide (1 ≤ imCount b ∧ imCount b ≤ 1024) && imMask b != 0 &&
  if imKind b = 2 then l.all (fun x => x.type_ == 0x0070) && distinct (l.map (·.region))
  else l.all (fun x => sectTypes.contains x.type_) &&
    (masked (imMask b)).all fun m => (neededTypes m).all fun t => l.any fun x => x.type_ == t && x.region == m

/-- The hash that embedded flash holds for a key selector; none where nothing is provisioned (R278, R414). -/
def State.keyHash (s : State) (sel : Nat) : Option (List Byte) :=
  let h := if sel = 0 then s.sec.vendorHash else if sel = 1 then s.sec.customerHash else []
  if h.isEmpty then none else some h

/-- Key selectors that the life-cycle state accepts (R422). -/
def State.keyAllowed (s : State) (sel : Nat) : Bool :=
  match s.sec.lifecycle with
  | 0 => sel == 0
  | 1 => sel == 0 || sel == 1
  | 2 => sel == 1
  | 3 => sel == 0
  | _ => false

def imKey (b : List Byte) : List Byte := sub b (imHashOff b + 32 * imCount b) 1312
def imSig (b : List Byte) : List Byte := sub b (imHashOff b + 32 * imCount b + 1312) 2420

/-- What the signature covers (R278). -/
def imSigned (b : List Byte) : List Byte :=
  b.take (64 + 32 * imCount b) ++ sub b (imHashOff b) (32 * imCount b) ++ imKey b

/-- Header, directory and hash table (R420). -/
def imHashed (b : List Byte) : List Byte := b.take (64 + 32 * imCount b) ++ sub b (imHashOff b) (32 * imCount b)

/-- The words of DRAM from `a` to `a + n - 1` that hold an error of a kind. -/
def State.badWords (s : State) (a n kind : Nat) : List Nat :=
  (s.ecc.filter fun e => decide (a ≤ e.1 ∧ e.1 < a + n) && e.2 == kind).map (·.1)

/-- Checks 1 to 7 of a staged image that lies in DRAM at `base`; `keep` says which sections' hashes are checked: all but in
a container that a follower takes its sub-image from (R283). -/
def State.imVerify (s : State) (b : List Byte) (base declared : Nat) (keep : Sect → Bool) : Nat :=
  if !imFramed b then cTruncated
  else if !(sub b 0 4 == ascii "ZPIM" && leNum b 4 2 == 1) then cTarget
  else if !s.imMatches b then cTarget
  else if !imShaped b declared then cBadParam
  else if !(s.keyAllowed (imKeySel b) && s.keyHash (imKeySel b) == some (sha3 (imKey b))) then cSignature
  else if !mlVerify (imKey b) (imSigned b) (imSig b) then cSignature
  else if !((imSects b).all fun x => !keep x || sub b (imHashOff b + 32 * x.idx) 32 == sha3 x.body) then cHash
  else if !(s.badWords base b.length 2).isEmpty then cHash
  else cOk

/- Records (R277). -/

/-- A run: its address and data. -/
structure Run where
  addr : Nat
  data : List Byte
  deriving DecidableEq, Repr

/-- The runs of a body; none when a record breaks the format. `fuel` bounds their number. -/
def runsOf : Nat → List Byte → Option (List Run)
  | _, [] => some []
  | 0, _ => none
  | fuel + 1, b =>
    let n := leNum b 8 4
    let len := 16 + roundUp n 8
    if b.length < len ∨ leNum b 12 4 ≠ 0 ∨ allZero (sub b (16 + n) (roundUp n 8 - n)) = false then none
    else (runsOf fuel (b.drop len)).map fun l => { addr := leNum b 0 8, data := sub b 16 n } :: l

def bodyRuns (b : List Byte) : Option (List Run) := runsOf (b.length / 16 + 1) b

/-- A memory-init record. -/
structure MemInit where
  dest : Nat
  len : Nat
  data : List Byte
  deriving DecidableEq, Repr

/-- `n` bytes of a repeated 8-byte value. -/
def fill (n : Nat) (pattern : List Byte) : List Byte := (List.replicate (n / 8) pattern).flatten

def memInits : Nat → List Byte → Option (List MemInit)
  | _, [] => some []
  | 0, _ => none
  | fuel + 1, b =>
    let n := leNum b 8 8
    let mode := leNum b 16 4
    let size := if mode = 1 then 32 + n else 32
    if b.length < size ∨ leNum b 0 8 % 8 ≠ 0 ∨ n % 8 ≠ 0 ∨ 1 < mode ∨ leNum b 20 4 ≠ 0 ∨ (mode = 1 ∧ leNum b 24 8 ≠ 0) then none
    else (memInits fuel (b.drop size)).map fun l =>
      { dest := leNum b 0 8, len := n, data := if mode = 1 then sub b 32 n else fill n (sub b 24 8) } :: l

def bodyMemInits (b : List Byte) : Option (List MemInit) := memInits (b.length / 32 + 1) b

/-- Records of a fixed size. -/
def recs (n : Nat) (b : List Byte) : List (List Byte) := (List.range (b.length / n)).map fun i => sub b (n * i) n

/-- Width of the accesses that the target of a run takes (R61, R92, R147, R218). -/
def runUnit (p : Part) (a : Nat) : Nat :=
  match placeOf p a with
  | .cluster m _ _ _ => m.width
  | .array _ o => arrayWidth o
  | .tileRegs _ _ => 8
  | _ => 1

/-- A run cut into the accesses of its target; none when one is not aligned or does not fill its width. -/
def runUnits (p : Part) : Nat → Nat → List Byte → Option (List (Nat × List Byte))
  | _, _, [] => some []
  | 0, _, _ => none
  | fuel + 1, a, d =>
    let w := runUnit p a
    if a % w = 0 ∧ w ≤ d.length then (runUnits p fuel (a + w) (d.drop w)).map fun l => (a, d.take w) :: l else none

def Run.units (p : Part) (r : Run) : Option (List (Nat × List Byte)) := runUnits p r.data.length r.addr r.data

/-- Every access of every run of a body. -/
def bodyUnits (p : Part) (b : List Byte) : Option (List (Nat × List Byte)) :=
  (bodyRuns b).bind fun rs => (rs.mapM (Run.units p)).map List.flatten

/-- Bodies made of runs. -/
def runTypes : List Nat := [0x0001, 0x0010, 0x0011, 0x0012, 0x0013, 0x0020, 0x0030]

/-- A usage record. -/
structure UsageRec where
  tile : Nat
  array : Bool
  banks : Nat
  clusters : Nat
  deriving DecidableEq, Repr

def usageOf (b : List Byte) : List UsageRec :=
  (recs 24 b).map fun r => { tile := leNum r 0 1, array := (leNum r 1 1).testBit 0, banks := leNum r 2 2, clusters := leNum r 8 16 }

/-- A pin record: `pin` is 0x100 + k for a bridge. -/
structure PinRec where
  pin : Nat
  init : Nat
  value : W64
  deriving DecidableEq, Repr

def pinsOf (b : List Byte) : List PinRec :=
  (recs 16 b).map fun r => { pin := leNum r 0 2, init := leNum r 2 1, value := BitVec.ofNat 64 (leNum r 8 8) }

def PinRec.func (r : PinRec) : Nat := fld r.value 0 3
def PinRec.owner (r : PinRec) : Nat := fld r.value 4 3
def PinRec.sel (r : PinRec) : Nat := fld r.value 24 6
def PinRec.bridge (r : PinRec) : Nat := fld r.value 32 4
def PinRec.isPin (r : PinRec) : Bool := decide (r.pin < 0x100)

/- What a committing command takes from an image (R288). -/

/-- A load: the image's bytes, whether it is committed as a full one, the command's mask, and the sections used. -/
structure Load where
  img : List Byte
  full : Bool
  mask : Nat
  secs : List Sect
  deriving DecidableEq, Repr

/-- Sections of a type. -/
def Load.ofType (l : Load) (t : Nat) : List Sect := l.secs.filter fun x => x.type_ == t

/-- Emulation and glue regions of the load. -/
def Load.es (l : Load) : List Nat := (List.range 16).filter l.mask.testBit
def Load.gs (l : Load) : List Nat := (List.range 8).filter fun n => l.mask.testBit (16 + n)

/-- Pin records of the load, with the region of their section. -/
def Load.pins (l : Load) : List (Nat × PinRec) :=
  (l.ofType 0x0050).flatMap fun x => (pinsOf x.body).map fun r => (x.region, r)

/-- Link records of the load. -/
def Load.links (l : Load) : List (List Byte) := (l.ofType 0x0051).flatMap fun x => recs 16 x.body

/-- Memory-init records with the region of their section. -/
def Load.inits (l : Load) : List (Nat × MemInit) :=
  (l.ofType 0x0060).flatMap fun x => ((bodyMemInits x.body).getD []).map fun r => (x.region, r)

/-- Accesses of the sections of a type, with the region of their section. -/
def Load.writes (p : Part) (l : Load) (t : Nat) : List (Nat × Nat × List Byte) :=
  (l.ofType t).flatMap fun x => ((bodyUnits p x.body).getD []).map fun u => (x.region, u.1, u.2)

def Load.usage (l : Load) : List UsageRec := (l.ofType 0x0002).flatMap fun x => usageOf x.body

/-- Claims that the load makes: kind, index and holder (R407). Lanes are held by the image as a whole, under holder 40. -/
def Load.claims (l : Load) : List (Nat × Nat × Nat) :=
  (l.pins.flatMap fun (m, r) =>
    if r.isPin then
      (0, r.pin, 16 + m) :: (match r.func with
        | 6 => [(4, r.bridge, 16 + m)]
        | 5 => [(2, r.sel % 8, 16 + m)]
        | 2 | 3 | 4 => [(3, r.func - 2, 16 + m)]
        | _ => [])
    else [(4, r.pin - 0x100, 16 + m)]) ++
  l.links.flatMap fun b =>
    let r := linkRecOf b
    if r.mode = 0 then [] else (List.range r.lanes).map fun i => (1, r.first + i, 40)

end Sys2Proof.Machine
end

