-- ==== Sys2Proof/Machine/Commit.lean ====
section
/-! DEFINITION. Checks 8 to 12 of R285, the commit (R286 to R289) and how it ends when it fails (R287). -/

namespace Sys2Proof.Machine

/- Writes of the configuration engine (R286, R287). -/

/-- The place is a memory whose cells may fail. -/
def isMemory : Place → Bool
  | .dram | .scratchpad _ | .cluster _ _ _ _ | .array _ _ => true
  | _ => false

/-- A tile register written by the commit, which the conditions of R66, R95 and R148 do not bind. -/
def State.commitReg (s : State) (a : Nat) (v : W64) : State := match regRow a with
  | some r => s.regEffect r .config a v
  | none => s

/-- One write and its read-back: a defective byte keeps what it holds, a transient fault loses one write (log 10).
Answers whether what reads back is what was written and the write was answered OK. -/
def State.tryWrite (s : State) (a : Nat) (d : List Byte) : State × Bool :=
  let b := s.translate a
  if isMemory (placeOf s.part b) then
    let lost := fun (i : Nat) => s.defects.contains (b + i) || s.transients.contains (b + i)
    let kept := (List.range d.length).map fun i => if lost i then s.byte (b + i) else d.getD i 0
    let s1 : State := { s with transients := s.transients.filter fun x => !decide (b ≤ x ∧ x < b + d.length) }
    (if b < 0x10_0000_0000 then s1.directDram b kept else s1.store b kept, kept == d)
  else match placeOf s.part b with
  | .tileRegs _ _ => (s.commitReg b (BitVec.ofNat 64 (natOfBytes d)), true)
  | _ =>
    let r := s.writeAt .config a d false
    (r.1, r.2 == stOk)

/-- A location written, and written again once when it reads back differently (R287). -/
def State.engineWrite (s : State) (a : Nat) (d : List Byte) : State × Bool :=
  let r := s.tryWrite a d
  if r.2 then r
  else
    let q := r.1.tryWrite a d
    if q.2 then (q.1.count aCfgCommit 32 16, true) else q

/-- Locations written in order, up to the first that fails. -/
def State.writeAll (s : State) (l : List (Nat × List Byte)) : State × Bool :=
  l.foldl (fun r x => if r.2 then r.1.engineWrite x.1 x.2 else r) (s, true)

/- Steps 1 and 2 (R286). -/

/-- A region reset (R11). -/
def State.regionReset (s : State) (m : Nat) : State := s.resetRegs fun d => decide (d = .region m)

/-- The compute domain of a region ON, and every scratchpad bank of its tiles (R181, R297). -/
def State.domainOn (s : State) (m : Nat) : State :=
  let s1 := if s.domainOf m = 0 then s else (s.powerBegin m 0).powerDone m
  s1.forEach (tilesOf m) fun s t =>
    let s2 := ((s.setFld (aSpPwr t) 0 32 0).moveBanks t).forEach (List.range 16) fun s b => (s.bankWake t b).bankZero t b
    s2.openTile t

/-- The latches, units and parking places of a region's tiles emptied; the region as it is before its release. -/
def State.emptyRegion (s : State) (m : Nat) : State :=
  let s1 := s.forEach (tilesOf m) fun s t =>
    let s2 := s.forEach (List.range 132) fun s c => s.setClu (cluKey t c) {}
    let s3 := s2.forEach (s2.sw t).parked fun s q => s.setFld (aSlot t q.out q.half q.slot 1) (45 + b2n q.gen) 1 0
    (s3.setSw t { s3.sw t with parked := [] }).setArr t {}
  s1.setRgn m { pwrTarget := (s1.rgn m).pwrTarget }

/-- The rigging network of every tile emptied, receive latches included, and its credits restarted (R286). -/
def State.emptyRigging (s : State) : State :=
  let s1 := s.forEach (List.range 64) fun s t =>
    let w := s.sw t
    let s2 := s.forEach (w.bufs.filter fun e => decide (10000 ≤ e.1)) fun s e => s.forEach e.2 fun s _ => s.freePlace t e.1
    s2.forEach w.parked fun s q => s.setFld (aSlot t q.out q.half q.slot 1) (45 + b2n q.gen) 1 0
  let s2 := s1.forEach s1.clus fun s e => s.setClu e.1 { s.clu e.1 with rx0 := [], rx1 := [] }
  { s2 with sws := [] }

/-- Steps 1 and 2 of a commit. -/
def State.prepare (s : State) (l : Load) : State :=
  let s1 := if l.full then s.forEach (List.range 16) fun s m => s.writeFence m true else s
  let s2 := s1.forEach l.es fun s m => ((s.domainOn m).regionReset m).emptyRegion m
  if l.full then s2.emptyRigging else s2

/- Step 3 (R286, R289). -/

/-- The half that a commit writes for a region. -/
def State.loadHalf (s : State) (l : Load) (m : Nat) : Nat := if l.full then 0 else 1 - s.fldOf (aRgnRig m) 0 1

/-- A write of a slot-table run, moved to the half that the commit writes; the reserved places of LAST_GEN and PARK stay
the hardware's. -/
def State.slotPlace (s : State) (l : Load) (m : Nat) (u : Nat × List Byte) : Nat × List Byte :=
  (u.1 + 0x4000 * s.loadHalf l m, u.2)

/-- OWNER of a full image's entry in the other half, and LAST_GEN 1 in the written one (R94, R289). -/
def State.slotAfter (s : State) (l : Load) (u : Nat × List Byte) : State :=
  if u.1 % 16 = 8 then
    let s1 := s.setBit u.1 44 true
    if l.full then s1.setFld (u.1 + 0x4000) 1 4 (fld (BitVec.ofNat 64 (natOfBytes u.2)) 1 4) else s1
  else s

/-- The slot tables: entries, the other half's OWNER, LAST_GEN, and the halves' registers. -/
def State.writeSlots (s : State) (l : Load) : State × Bool :=
  let us := (l.writes s.part 0x0030).map fun x => s.slotPlace l x.1 x.2
  let r := s.writeAll us
  let s1 := r.1.forEach us fun s u => s.slotAfter l u
  let s2 :=
    if l.full then s1.forEach (List.range 16) fun s m => s.setReg (aRgnRig m) 0
    else s1.forEach l.es fun s m =>
      let h := s.loadHalf l m
      let stale := s.regs.filter fun e =>
        decide (0x15_0000_0000 ≤ e.1 ∧ e.1 < 0x15_0400_0000 ∧ 0x4_0000 ≤ e.1 % 0x10_0000 ∧ e.1 % 0x10_0000 < 0xA_8000 ∧ e.1 % 16 = 8) &&
        (let x := slotAt (e.1 % 0x10_0000 - 0x4_0000) e.2; x.half == h && x.owner == m)
      (s.forEach stale fun s e => s.setBit e.1 44 true).setBit (aRgnRig m) 1 true
  (s2, r.2)

/-- A data-store word listed with an initial value: bank 0 valid with GB 0 (R47). -/
def State.dsListed (s : State) (a : Nat) : State :=
  match placeOf s.part (s.translate a) with
  | .cluster _ t c off => (s.putMemBit (aDsVal t c) (off / 8) true).putMemBit (aDsGen t c) (off / 8) false
  | _ => s

/-- The data stores of a region's clusters: every word GB 1 and DV 0, then the listed words (R47). -/
def State.writeDs (s : State) (l : Load) : State × Bool :=
  let s1 := s.forEach l.es fun s m => s.forEach (tilesOf m) fun s t => s.forEach (List.range 132) fun s c =>
    (s.clearMem (aDsVal t c) 32).clearMem (aDsGen t c) 32
  let us := (l.writes s.part 0x0013).map (·.2)
  let r := s1.writeAll us
  (r.1.forEach us fun s u => s.dsListed u.1, r.2)

/-- Frame records as address and data. -/
def Load.frames (l : Load) : List (Nat × List Byte) :=
  (l.ofType 0x0040).flatMap fun x => (recs 132 x.body).map fun r => (0x14_0000_0000 + 128 * leNum r 0 4, sub r 4 128)

/-- One step of the writing after another, as long as none has failed. -/
def thenWrite (r : State × Bool) (f : State → State × Bool) : State × Bool := if r.2 then f r.1 else r

/-- The sections written in the order of step 3. -/
def State.writeSections (s : State) (l : Load) : State × Bool :=
  let p := s.part
  let r0 := s.writeAll (l.inits.map fun x => (x.2.dest, x.2.data))
  let r1 := [0x0010, 0x0011, 0x0012].foldl (fun r t => thenWrite r fun s => s.writeAll ((l.writes p t).map (·.2))) r0
  let r2 := thenWrite r1 fun s => s.writeDs l
  let r3 := thenWrite r2 fun s => s.writeAll ((l.writes p 0x0020).map (·.2))
  let r4 := thenWrite r3 fun s => s.writeSlots l
  let r5 := thenWrite r4 fun s => s.writeAll l.frames
  thenWrite r5 fun s => s.writeAll ((l.writes p 0x0001).map (·.2))

/-- The state that the registers, slot tables and array memories of a load would make, for the checks of placement. -/
def State.candidate (s : State) (l : Load) : State :=
  let ideal : State := { s with defects := [], transients := [] }
  let s1 := ideal.prepare l
  let s2 := (s1.writeAll ((l.writes s.part 0x0020).map (·.2))).1
  (((s2.writeSlots l).1).writeAll ((l.writes s.part 0x0001).map (·.2))).1

/- Check 8 (R285). -/

/-- Reserved bits of a register that REGS writes. -/
def reservedBits (a : Nat) : W64 :=
  let o := a % 0x10_0000
  let ro := if 0x8000 ≤ o ∧ o < 0xA100 ∧ o % 0x40 = 0x38 then bits 20 10 ||| bits 52 42
    else if 0xD040 ≤ o ∧ o < 0xD080 then bits 32 32 else 0
  match regRow a with
  | some r => ~~~(r.rw ||| ro)
  | none => 0

/-- A pin record's own fields (R264, R265, R277, R490). -/
def pinRecOk (raw : List Byte) : Bool :=
  let r : PinRec := { pin := leNum raw 0 2, init := leNum raw 2 1, value := BitVec.ofNat 64 (leNum raw 8 8) }
  allZero (sub raw 3 5) &&
  if r.isPin then
    decide (r.init < 4) &&
    (r.value &&& ~~~(bits 2 0 ||| bits 6 4 ||| bits 14 8 ||| bits 29 16 ||| bits 36 32 ||| bits 63 63)) == 0 &&
    fld r.value 10 2 != 3 && fld r.value 12 2 != 3 &&
    (match r.owner with
      | 0 => r.func == 0
      | 3 => decide (1 ≤ r.func ∧ r.func ≤ 5)
      | 4 => r.func == 6
      | _ => false)
  else decide (r.pin < 0x110) && r.init == 0

/-- The records of a section keep their format, and its reserved fields are 0. -/
def State.sectFormat (s : State) (x : Sect) : Bool :=
  if runTypes.contains x.type_ then
    match bodyUnits s.part x.body with
    | none => false
    | some us =>
      if x.type_ = 0x0001 then us.all fun u => (BitVec.ofNat 64 (natOfBytes u.2) &&& reservedBits u.1) == 0
      else if x.type_ = 0x0030 then us.all fun u =>
        u.1 / 0x4000 % 2 == 0 &&
        (u.1 % 16 == 0 || (BitVec.ofNat 64 (natOfBytes u.2) &&& (bits 43 42 ||| bits 63 51)) == 0)
      else true
  else match x.type_ with
  | 0x0002 => x.body.length % 24 == 0 && (recs 24 x.body).all (fun r => decide (leNum r 1 1 < 2) && leNum r 4 4 == 0) &&
      distinct ((usageOf x.body).map (·.tile))
  | 0x0040 => x.body.length % 132 == 0 && (recs 132 x.body).all fun r => decide (leNum r 0 4 < 2 ^ 20)
  | 0x0050 => x.body.length % 16 == 0 && (recs 16 x.body).all pinRecOk
  | 0x0051 => x.body.length % 16 == 0 && ((recs 16 x.body).all fun r => linkRecOk r (s.bootFlag 1)) && s.ratesOk ((recs 16 x.body).map linkRecOf)
  | 0x0060 => (bodyMemInits x.body).isSome
  | _ => true

/-- Reserved fields of header and directory (R274, R275). -/
def imReserved (b : List Byte) : Bool :=
  allZero (sub b 27 5) && allZero (sub b 56 8) && decide (imMask b < 2 ^ 24) && decide (leNum b 10 1 < 4) &&
  decide (leNum b 11 1 < 64) &&
  (List.range (imCount b)).all fun i => allZero (sub b (68 + 32 * i) 4) && allZero (sub b (88 + 32 * i) 8)

/-- R67 and R121 for a region, on the candidate's registers. -/
def State.paramsOk (s : State) (m : Nat) : Bool :=
  let d := s.reg (aRgnSched m)
  let l := 8 * (fld d 0 9 + 1)
  let w := 8 * fld d 9 7
  let win := s.reg (aRgnRefwin m)
  let len := 8 * fld win 12 9
  fld d 16 2 != 3 && decide (l ≤ 1024 * 2 ^ fld d 16 2) && decide (w ≤ min (l / 4) 512) && decide (fld d 20 12 ≤ l - 1) &&
  decide (fld win 0 12 + len ≤ l) && (len == 0 || decide ((if s.part.speed15 then 256 else 208) ≤ len))

/-- A descriptor that an enabled port's chain reaches: its tile, port, number, direction and contents. -/
structure StreamRange where
  t : Nat
  n : Nat
  d : Nat
  write : Bool
  raw : List Byte
  deriving DecidableEq, Repr

def StreamRange.descr (r : StreamRange) : Descr := descrOf r.raw

/-- The descriptors of a chain, each once. -/
def State.chain (s : State) (t : Nat) : Nat → List Nat → Nat → List Nat
  | 0, seen, _ => seen
  | fuel + 1, seen, d =>
    if seen.contains d then seen
    else
      let x := descrOf (s.bytes (aDescr t d) 32)
      if x.link then s.chain t fuel (seen ++ [d]) x.next else seen ++ [d]

/-- Every descriptor that the enabled ports of a region's arrays reach (R160, R161). -/
def State.ranges (s : State) (m : Nat) : List StreamRange :=
  (tilesOf m).flatMap fun t => ((List.range 8).filter fun n => s.bitOf (aPortCfg t n) 0).flatMap fun n =>
    (s.chain t 32 [] (s.fldOf (aPortCfg t n) 2 5)).map fun d =>
      { t, n, d, write := s.bitOf (aPortCfg t n) 1, raw := s.bytes (aDescr t d) 32 }

/-- A descriptor's own values (R159, R161). -/
def StreamRange.ok (r : StreamRange) : Bool :=
  let x := r.descr
  decide (1 ≤ x.count ∧ x.count ≤ 16777216 ∧ x.elem < 5) && (!r.write || x.rep == 0) &&
  leNum r.raw 6 2 == 0 && decide (leNum r.raw 18 1 < 32) && decide (leNum r.raw 19 1 < 32) && allZero (sub r.raw 20 12)

/-- The descriptors that the load writes, whether or not an enabled port reaches them (R161). -/
def State.imageDescrs (c : State) (l : Load) : List StreamRange :=
  let ds := (l.writes c.part 0x0020).filterMap fun x =>
    let o := (x.2.1 - 0x13_0000_0000) % 0x4_0000
    if 0x1_9000 ≤ o ∧ o < 0x1_9400 then some ((x.2.1 - 0x13_0000_0000) / 0x4_0000, (o - 0x1_9000) / 32) else none
  ds.eraseDups.map fun e => { t := e.1, n := 8, d := e.2, write := false, raw := c.bytes (aDescr e.1 e.2) 32 }

/-- ITAB_LEN of every jump table that an IND entry of the load names (R161). -/
def State.itabsOk (s : State) (l : Load) : Bool :=
  (l.writes s.part 0x0020).all fun x =>
    let o := (x.2.1 - 0x13_0000_0000) % 0x4_0000
    if 0x1_8000 ≤ o ∧ o < 0x1_8800 ∧ leNum x.2.2 0 8 / 2 ^ 16 % 8 = 3 then
      let n := s.num (aItabLen ((x.2.1 - 0x13_0000_0000) / 0x4_0000) (leNum x.2.2 0 8 / 2 ^ 35 % 8)) 1
      decide (1 ≤ n ∧ n ≤ 16)
    else true

/-- Check 8. `c` is the candidate. -/
def State.check8 (s c : State) (l : Load) : Bool :=
  let glue := c.forEach l.frames fun s x => s.putMem x.1 x.2
  let pins := l.pins.map (·.2)
  let inputs := (pins.filter fun r => r.func == 6 && !bit r.value 36).map fun r => 64 * r.bridge + r.sel
  imReserved l.img && l.secs.all s.sectFormat && l.es.all c.paramsOk && distinct (pins.map (·.pin)) && distinct inputs &&
  (inputs.all fun k => !((l.gs.contains (k / 128) || s.rgnState (16 + k / 128) != 0) && glue.sinkDriven (k / 128) (.brIn (k / 64 % 2) (k % 64)))) &&
  (l.es.flatMap c.ranges ++ c.imageDescrs l).all StreamRange.ok && c.itabsOk l

/- Check 9 (R285). -/

/-- REGS reaches the register (R276). -/
def regsReach (m a : Nat) : Bool :=
  let t := (a - 0x15_0000_0000) / 0x10_0000
  let o := a % 0x10_0000
  decide (0x15_0000_0000 ≤ a) && (tilesOf m).contains t &&
  ((decide (0x8000 ≤ o ∧ o < 0xA100) && (o % 0x40 == 0x38 || decide (o % 0x40 < 0x20))) || o == 0xD000 ||
   decide (0xD040 ≤ o ∧ o < 0xD080) || o == 0xE000 || (t == homeTile m && (o == 0xC000 || o == 0xC008 || o == 0xC038)))

/-- An access of a run lies in the memories that its section's type names, within its section's region; a slot-table entry
of a partial image is its region's own (R94, R276). -/
def State.unitInRegion (s : State) (l : Load) (type_ m a : Nat) (d : List Byte) : Bool :=
  let mine := fun (t : Nat) => (tilesOf m).contains t
  let inMem := fun (l : List Nat) => match placeOf s.part a with
    | .cluster x t _ off => mine t && l.contains x.base && (x.base != 0x12_0000_0000 || decide (off < 1024))
    | _ => false
  match type_ with
  | 0x0001 => regsReach m a
  | 0x0010 => inMem [0x11_0000_0000, 0x11_C000_0000]
  | 0x0011 => inMem [0x11_8000_0000]
  | 0x0012 => inMem [0x11_A000_0000]
  | 0x0013 => inMem [0x12_0000_0000]
  | 0x0020 => match placeOf s.part a with
    | .array t _ => mine t
    | _ => false
  | _ =>
    let o := a % 0x10_0000
    decide (0x15_0000_0000 ≤ a ∧ a < 0x15_0400_0000 ∧ 0x4_0000 ≤ o ∧ o < 0xA_8000) &&
    (l.full || ((slotAt 0 (s.reg (a / 16 * 16 + 8))).owner == m &&
      (a % 16 == 0 || fld (BitVec.ofNat 64 (natOfBytes d)) 1 4 == m)))

/-- A full image writes every entry of every tile's outputs (R94). -/
def Load.coversSlots (p : Part) (l : Load) : Bool :=
  let as_ := (l.writes p 0x0030).map fun x => x.2.1
  (List.range 64).all fun t => (List.range 13).all fun o => (List.range 1024).all fun e => as_.contains (aSlot t o 0 e 1)

/-- A memory-model window: tile, cluster, number, first byte, end, whether writes are permitted, whether its size and place
are valid (R54). -/
structure Win where
  t : Nat
  pc : Nat
  n : Nat
  lo : Nat
  hi : Nat
  wr : Bool
  ok : Bool
  deriving DecidableEq, Repr

/-- The enabled windows of a region. -/
def State.windows (s : State) (m : Nat) : List Win :=
  (tilesOf m).flatMap fun t => s.regs.filterMap fun e =>
    let o := e.1 - cluReg t 0 0
    if cluReg t 0 0 ≤ e.1 ∧ o < 132 * 0x40 ∧ o % 0x40 < 0x20 ∧ bit e.2 0 then
      let lo := fld e.2 16 42 * 64
      let n := fld e.2 2 6
      some { t, pc := o / 0x40, n := o % 0x40 / 8, lo, hi := lo + 2 ^ n, wr := bit e.2 1, ok := decide (6 ≤ n ∧ n ≤ 36) && lo % 2 ^ n == 0 }
    else none

/-- The bytes lie in the scratchpad of a tile, or in DRAM allotted to a region (R56, R161). -/
def State.placed (s : State) (m t lo hi : Nat) : Bool :=
  decide (0x10_0000_0000 + 0x20_0000 * t ≤ lo ∧ hi ≤ 0x10_0000_0000 + 0x20_0000 * (t + 1)) ||
  (decide (lo < hi) && s.ownedBy m lo (hi - lo))

/-- Two ranges of bytes share one. -/
def meets (a n b k : Nat) : Bool := decide (a < b + k ∧ b < a + n)

/-- First byte of each element of a descriptor. -/
def Descr.elems (d : Descr) : List Nat := (List.range d.count).map d.at

def StreamRange.meetsWin (r : StreamRange) (w : Win) : Bool :=
  r.descr.elems.any fun a => meets a (elemSize r.descr.elem) w.lo (w.hi - w.lo)

def StreamRange.meetsRange (r q : StreamRange) : Bool :=
  r.descr.elems.any fun a => q.descr.elems.any fun b => meets a (elemSize r.descr.elem) b (elemSize q.descr.elem)

/-- Windows and stream ranges stand where R56 and R161 allow, and overlap only as they allow. -/
def State.placesOk (c : State) (l : Load) : Bool :=
  let others := if l.full then [] else (List.range 16).filter fun m => !l.es.contains m && c.rgnState m != 0
  let own := l.es.flatMap c.windows
  let wins := own ++ others.flatMap c.windows
  let mine := l.es.flatMap c.ranges
  let ranges := mine ++ others.flatMap c.ranges
  own.all (fun w => w.ok && c.placed (regionOfTile w.t) w.t w.lo w.hi) &&
  wins.all (fun w => wins.all fun v => v == w || !(w.wr || v.wr) || !meets w.lo (w.hi - w.lo) v.lo (v.hi - v.lo)) &&
  (mine ++ c.imageDescrs l).all (fun r => r.descr.elems.all fun a => c.placed (regionOfTile r.t) r.t a (a + elemSize r.descr.elem)) &&
  ranges.all (fun r =>
    wins.all (fun w => !(r.write || w.wr) || !r.meetsWin w) &&
    ranges.all fun q => q == r || !(r.write || q.write) || !r.meetsRange q)

/-- The valid delivery entries of a tile in the half `h` of region `m`. -/
def State.deliveries (s : State) (t m h : Nat) : List Slot :=
  (s.slots t).filter fun x => decide (5 ≤ x.out) && x.half == h && x.owner == m

/-- Delivery entries that serve a tile of the load once it is released: of a full image every one it writes, whoever owns
it; else the new half of the loaded regions, the active half of the others (R298). -/
def State.serving (s c : State) (l : Load) (t : Nat) : List Slot :=
  (List.range 16).flatMap fun m => if l.full then c.deliveries t m 0
    else if l.es.contains m then c.deliveries t m (s.loadHalf l m) else c.deliveries t m (s.fldOf (aRgnRig m) 0 1)

/-- Every delivery entry that a full image writes in any tile names a cluster, and its SEQ does not exceed the latch's count
(R94). -/
def State.fullSlotsOk (c : State) (l : Load) : Bool :=
  !l.full || (List.range 64).all fun t => (List.range 16).all fun m => (c.deliveries t m 0).all fun x =>
    decide (x.dest < 132) && decide (x.seq ≤ c.fldOf (aRxSeq t (c.phys t x.dest)) (32 * b2n x.latch) 10)

/-- Every delivery entry names a cluster; each latch's count is the number of entries that name it, and no SEQ exceeds it
(R94, R97, R114, R298). -/
def State.latchesOk (s c : State) (l : Load) : Bool :=
  (l.es.flatMap tilesOf).all fun t =>
    let es := s.serving c l t
    es.all fun x =>
      decide (x.dest < 132) &&
      let pc := c.phys t x.dest
      let n := c.fldOf (aRxSeq t pc) (32 * b2n x.latch) 10
      decide (x.seq ≤ n) && (es.filter fun y => c.phys t y.dest == pc && y.latch == x.latch).length == n + 1

/-- The interface of the loaded regions with every region outside the mask is kept (R298), and their new entries there name
clusters. -/
def State.interfaceOk (s c : State) (l : Load) : Bool :=
  l.full || (List.range 64).all fun t => l.es.contains (regionOfTile t) || l.es.all fun m =>
    let key := fun (x : Slot) => (x.dest, x.latch, x.seq)
    let new := (c.deliveries t m (s.loadHalf l m)).map key
    let old := (s.deliveries t m (s.fldOf (aRgnRig m) 0 1)).map key
    new.all (fun k => old.contains k && decide (k.1 < 132)) && old.all fun k => new.contains k

/-- A pin or bridge record belongs to its section's region (R490). -/
def pinInRegion (m : Nat) (r : PinRec) : Bool :=
  if m < 16 then
    if r.isPin then r.owner == 0 || (r.owner == 4 && r.bridge == m) else r.pin == 0x100 + m
  else r.isPin && r.pin / 32 + 16 == m && (r.owner == 0 || r.owner == 3)

/-- A memory-init record writes inside its region's windows or scratchpads (R114). -/
def State.initOk (c : State) (m : Nat) (r : MemInit) : Bool :=
  ((tilesOf m).any fun t => decide (0x10_0000_0000 + 0x20_0000 * t ≤ r.dest ∧ r.dest + r.len ≤ 0x10_0000_0000 + 0x20_0000 * (t + 1))) ||
  (c.windows m).any fun w => decide (w.lo ≤ r.dest ∧ r.dest + r.len ≤ w.hi)

/-- Clusters that the sections of a load write, by tile and name; spares need no listing. -/
def State.writtenClusters (s : State) (l : Load) : List (Nat × Nat) :=
  ([0x0010, 0x0011, 0x0012, 0x0013].flatMap fun t => (l.writes s.part t).filterMap fun x => match placeOf s.part x.2.1 with
    | .cluster _ t c _ => if c < 128 then some (t, c) else none
    | _ => none) ++
  (l.writes s.part 0x0001).filterMap fun x =>
    let o := x.2.1 % 0x10_0000
    if 0x8000 ≤ o ∧ o < 0xA000 then some ((x.2.1 - 0x15_0000_0000) / 0x10_0000, (o - 0x8000) / 0x40) else none

/-- Arrays and banks that the sections of a load write. -/
def State.writtenArrays (s : State) (l : Load) : List Nat :=
  ((l.writes s.part 0x0020).map fun x => (x.2.1 - 0x13_0000_0000) / 0x4_0000) ++
  (l.writes s.part 0x0001).filterMap fun x =>
    let o := x.2.1 % 0x10_0000
    if o = 0xD000 ∨ (0xD040 ≤ o ∧ o < 0xD080) then some ((x.2.1 - 0x15_0000_0000) / 0x10_0000) else none

def Load.writtenBanks (l : Load) : List (Nat × Nat) :=
  l.inits.flatMap fun x =>
    if 0x10_0000_0000 ≤ x.2.dest then
      (List.range ((x.2.dest + x.2.len + 0x1_FFFF) / 0x2_0000 - x.2.dest / 0x2_0000)).map fun i =>
        let k := (x.2.dest - 0x10_0000_0000) / 0x2_0000 + i
        (k / 16, k % 16)
    else []

/-- Every resource that a section writes is listed in the usage table (R114, R127). -/
def State.usageCovers (s : State) (l : Load) : Bool :=
  let u := l.usage
  (s.writtenClusters l).all (fun tc => u.any fun r => r.tile == tc.1 && r.clusters.testBit tc.2) &&
  (s.writtenArrays l).all (fun t => u.any fun r => r.tile == t && r.array) &&
  l.writtenBanks.all fun tb => u.any fun r => r.tile == tb.1 && r.banks.testBit tb.2

/-- Check 9. -/
def State.check9 (s c : State) (l : Load) : Bool :=
  (imSects l.img).all (fun x =>
    if x.type_ = 0x0051 then x.region == 0xFFFF && imKind l.img == 0
    else (imMask l.img).testBit x.region && decide (x.region < 24) &&
      (x.type_ == 0x0050 || (x.type_ == 0x0040) == decide (16 ≤ x.region))) &&
  l.secs.all (fun x => !runTypes.contains x.type_ ||
    ((bodyUnits s.part x.body).getD []).all fun u => s.unitInRegion l x.type_ x.region u.1 u.2) &&
  (!l.full || l.coversSlots s.part) &&
  (l.ofType 0x0002).all (fun x => (usageOf x.body).all fun r => decide (r.tile < 64) && regionOfTile r.tile == x.region) &&
  (l.ofType 0x0040).all (fun x => (recs 132 x.body).all fun r =>
    frameOk (leNum r 0 4) && leNum r 0 4 / 2 ^ 17 + 16 == x.region) &&
  l.pins.all (fun x => pinInRegion x.1 x.2) && l.inits.all (fun x => c.initOk x.1 x.2) &&
  c.placesOk l && c.fullSlotsOk l && s.latchesOk c l && s.interfaceOk c l && s.usageCovers l

/- Checks 10 to 12 (R285). -/

/-- Check 10: no lost resource is listed (R127). -/
def State.check10 (s : State) (l : Load) : Bool :=
  l.usage.all fun r => s.health.lost.all fun x => match x with
    | .cluster t c => !(t == r.tile && r.clusters.testBit c)
    | .bank t b => !(t == r.tile && r.banks.testBit b)
    | .array t => !(t == r.tile && r.array)

/-- Check 11: every resource named is free, or held through an image that this commit replaces; the lanes of management
links are the firmware's; no two regions of the load share a DCO or a serial block (R272). -/
def State.check11 (s : State) (l : Load) : Bool :=
  l.claims.all fun x =>
    let h := s.claim x.1 x.2.1
    ((x.1 != 2 && x.1 != 3) || l.claims.all fun y => y.1 != x.1 || y.2.1 != x.2.1 || y.2.2 == x.2.2) &&
    (h == 0 || (decide (16 ≤ h) && (l.full || l.mask.testBit (h - 16)))) &&
    (x.1 != 1 || s.links.all fun e => !e.2.mgmt || !(s.linkLanes e.1).contains x.2.1)

/-- A region stands fenced with both drains complete (R291, R296): one that has not been released has nothing to drain, and a
glue region has no drain. -/
def State.drainedFence (s : State) (m : Nat) : Bool :=
  if m < 16 then s.fenced m && (!(s.rgn m).released || (s.bitOf (aNocFence m) 1 && s.bitOf (aCfgRgn m) 4))
  else s.glueFenced (m - 16)

/-- Checks 8 to 12 in their order. -/
def State.imCheck (s : State) (l : Load) : Nat :=
  let c := s.candidate l
  if !s.check8 c l then cBadParam
  else if !s.check9 c l then cOutside
  else if !s.check10 l then cCapacity
  else if !s.check11 l then cOwned
  else if l.full then (if s.devState = 2 then cBusy else cOk)
  else if !(masked l.mask).all s.drainedFence then cBadParam
  else cOk

/- Steps 4 to 6 and the endings (R286, R287). -/

/-- Claims without those that satisfy a test on the holder. -/
def State.dropClaims (s : State) (p : Nat → Bool) : State :=
  { s with mci := { s.mci with claims := s.mci.claims.filter fun e => !p e.2 } }

/-- The holder is a region through its image, of those that the load replaces. -/
def Load.replaces (l : Load) (h : Nat) : Bool := decide (16 ≤ h) && (l.full || l.mask.testBit (h - 16))

/-- Pins that the regions' previous images bind and the load does not. -/
def State.unbound (s : State) (l : Load) : List (Nat × Nat) :=
  ((List.range 256).filter fun p => l.replaces (s.claim 0 p) && !(l.pins.any fun x => x.2.pin == p)).map fun p =>
    (s.claim 0 p - 16, p)

/-- Step 4: PIN_CFG, OUT, OE and BR_OUT; pads wait for the release. -/
def State.writePins (s : State) (l : Load) : State :=
  let gone := s.unbound l
  let bound := (l.pins.filter fun x => x.2.isPin).map fun x => (x.1, x.2.pin)
  let g := s.glue
  let s1 : State := { s with glue :=
    if l.full then { g with waiting := [], unbind := [] }
    else { g with waiting := g.waiting.filter (fun e => !l.mask.testBit e.1) ++ bound,
                  unbind := g.unbind ++ gone.filter fun e => !g.unbind.contains e } }
  let s2 := if l.full then s1.forEach gone fun s e => s.freePin e.2 else s1
  s2.forEach l.pins fun s x =>
    let r := x.2
    if r.isPin then
      ((s.setBit (aOut (r.pin / 32)) (r.pin % 32) (r.init.testBit 0)).setBit (aOe (r.pin / 32)) (r.pin % 32)
        (r.init.testBit 1)).setPinCfg r.pin r.value
    else s.setBr (r.pin - 0x100) { s.br (r.pin - 0x100) with brOut := r.value }

/-- The link settings of LANES recorded in place of the previous image's; a recorded link that overlaps gives way. -/
def State.recordLanes (s : State) (l : Load) : State :=
  let new := (l.links.map linkRecOf).filter fun r => decide (r.mode ≠ 0)
  let drop := s.links.filter fun e => !e.2.mgmt && (s.linkLanes e.1).any fun n =>
    s.claim 1 n == 40 || new.any fun r => r.covers n
  let s1 := s.forEach drop fun s e => s.setLink e.1 { s.link e.1 with recorded := none }
  s1.forEach new fun s r => s.setLink r.first { s.link r.first with recorded := some r }

/-- The usage table of a region as the load lists it. -/
def Load.usageOf (l : Load) (m : Nat) : Usage :=
  let rs := (l.ofType 0x0002).filter (fun x => x.region == m) |>.flatMap fun x => Machine.usageOf x.body
  { clusters := rs.flatMap fun r => ((List.range 128).filter r.clusters.testBit).map fun c => (r.tile, c)
    banks := rs.flatMap fun r => ((List.range 16).filter r.banks.testBit).map fun b => (r.tile, b)
    arrays := (rs.filter (·.array)).map (·.tile) }

/-- LAST_STATUS (R307). -/
def State.lastStatus (s : State) (status : Nat) : State := s.setFld aCfgStatus 8 16 status

/-- Step 6: the commit marker, the claims, the states. -/
def State.marker (s : State) (l : Load) (source : Nat) : State :=
  let s1 := s.dropClaims l.replaces
  let s2 := s1.forEach l.claims fun s x => s.setClaim x.1 x.2.1 x.2.2
  let s3 := s2.forEach l.es fun s m =>
    (if l.full then s.setReg (aCfgRgn m) 1 else s.setFld (aCfgRgn m) 0 3 1).setRgn m
      { s.rgn m with usage := l.usageOf m, buildId := imBuild l.img, loaded := !l.full }
  let s4 := s3.forEach l.gs fun s n => s.setReg (aCfgRgn (16 + n)) 1
  let e := s4.engine
  let builds := l.gs.foldl (fun m n => mapSet (fun _ => []) m n (imBuild l.img)) e.glueBuild
  let conf := if l.full then masked l.mask else masked l.mask ++ e.configured.filter fun m => !l.mask.testBit m
  let s5 : State := { s4 with engine := { e with glueBuild := builds
                                                 configured := conf
                                                 glueLoaded := if l.full then [] else e.glueLoaded ++ l.gs } }
  let s6 := s5.count aCfgCommit 0 32
  if l.full then
    let rest := (List.range 24).filter fun m => !l.mask.testBit m
    let s7 := s6.forEach rest fun s m => s.setReg (aCfgRgn m) 0
    let s8 := s7.forEach (rest.filter fun m => decide (m < 16)) fun s m => s.setRgn m { pwrTarget := (s.rgn m).pwrTarget }
    let s9 : State := { s8 with engine := { s8.engine with fullBuild := imBuild l.img, fullHash := sha3 (imHashed l.img) } }
    (s9.setFld aCfgStatus 0 3 1).setFld aCfgStatus 3 3 source
  else s6

/-- How a commit that fails leaves its regions, or after a full one the device (R287). -/
def State.commitFailed (s : State) (l : Load) : State :=
  let s1 := s.count aCfgCommit 48 16
  let ms := if l.full then List.range 24 else masked l.mask
  let s1 : State := { s1 with engine := { s1.engine with configured := s1.engine.configured.filter fun m => !ms.contains m } }
  let s2 := s1.forEach ms fun s m => s.setReg (aCfgRgn m) (putFld (putFld (s.reg (aCfgRgn m)) 0 3 0) 6 1 0)
  let s3 := s2.forEach (ms.filter fun m => decide (m < 16)) fun s m => s.setRgn m { pwrTarget := (s.rgn m).pwrTarget }
  if l.full then
    let s3 : State := { s3 with glue := { s3.glue with waiting := [], unbind := [] } }
    let s4 := (s3.forEach (List.range 16) fun s m => s.writeFence m true).dropClaims fun h => decide (16 ≤ h)
    let s5 := s4.forEach ((List.range 256).filter fun p => s4.claim 0 p == 0) fun s p => s.freePin p
    s5.setFld aCfgStatus 0 3 0
  else s3

/-- An image that passed its checks is committed. -/
def State.commit (s : State) (l : Load) (base source : Nat) : State × Nat :=
  if !(s.badWords base l.img.length 2).isEmpty then ((s.commitFailed l).ioYards, cHash)
  else
    let r := (s.prepare l).writeSections l
    if r.2 then ((((r.1.writePins l).recordLanes l).marker l source).ioYards, cOk) else ((r.1.commitFailed l).ioYards, cInternal)

end Sys2Proof.Machine
end

