-- ==== Sys2Proof/Machine/Region.lean ====
section
/-! DEFINITION. START, STOP and the fence, release and join of regions (R234 to R236, R290 to R306). Regions are numbered as
in masks: 0 to 15 for E0 to E15, 16 to 23 for G0 to G7. -/

namespace Sys2Proof.Machine

/- Fences (R234, R296). -/

/-- The firmware at the completion of a fence: remaps that waited are applied, the tiles' yards close (R59, R124, R370). -/
def State.afterFence (s : State) (m : Nat) : State :=
  if s.pwr.firmware then (s.applyRemaps m).forEach (tilesOf m) State.closeTile else s

/-- Both drains of a region are complete: FENCED_DONE, and STATE FENCED unless it is FAULTED (R132, R296). -/
def State.finishFence (s : State) (m : Nat) : State :=
  if s.bitOf (aNocFence m) 0 && s.bitOf (aNocFence m) 1 && s.bitOf (aCfgRgn m) 4 && (s.rgn m).released &&
      !s.bitOf (aCfgRgn m) 6 then
    let s1 := s.setBit (aCfgRgn m) 6 true
    ((if s1.rgnState m = 5 then s1 else s1.setFld (aCfgRgn m) 0 3 3).afterFence m).settle
  else s

/-- The fence point of an emulation region, or of a glue region (R296). A region that has not been released has nothing to
drain. -/
def State.fenceRegion (s : State) (m : Nat) : State :=
  if 16 ≤ m then
    let s1 := s.setReg (aCfgRgn m) (putFld (putFld (s.reg (aCfgRgn m)) 0 3 3) 6 1 1)
    { s1 with engine := { s1.engine with glueLoaded := s1.engine.glueLoaded.filter (· != m - 16) } }
  else
    let s1 := s.setRgn m { s.rgn m with loaded := false }
    if (s.rgn m).released then (if s.bitOf (aNocFence m) 0 then s1 else s1.writeFence m true)
    else
      let s2 := s1.setReg (aNocFence m) 0xF
      let c := putFld (putFld (s2.reg (aCfgRgn m)) 4 1 1) 6 1 1
      s2.setReg (aCfgRgn m) (if fld c 0 3 = 5 then c else putFld c 0 3 3)

/-- Tags of region `m`'s requesters are out, or accesses it issued before the fence point wait to be sent (R234). -/
def State.reqBusy (s : State) (m : Nat) : Bool :=
  s.outTags m != 0 ||
  (tilesOf m).any fun t =>
    ((List.range 132).any fun c =>
      let u := s.clu (cluKey t c)
      u.mm.any fun a => a.phase == .sent || (a.phase == .waiting && !u.mmBroken)) ||
    ((List.range 8).any fun n =>
      let p := (s.arr t).port n
      if s.bitOf (aPortCfg t n) 1 then !p.fifo.isEmpty && !s.arrStopped t else p.fifo.any fun w => w.asked != 0)

/-- Requests that the region's endpoints accepted before the fence point are not yet answered (R234). -/
def State.tgtBusy (s : State) (m : Nat) : Bool :=
  (s.noc.before.any fun x => x.1 == m && decide (x.2.dstPort < 2)) ||
  (tilesOf m).any fun t =>
    ((List.range 16).any fun b => !(s.bank (bankKey t b)).queue.isEmpty || (s.bank (bankKey t b)).second.isSome) ||
    (s.noc.wbufs.any fun w => w.node == t && decide (w.port < 2))

/-- Requests of region `m` and requests at its endpoints that are not yet answered (R234). -/
def State.packetBusy (s : State) (m : Nat) : Bool := s.reqBusy m || s.tgtBusy m

/-- REQ_IDLE sets once every tag has been returned, TGT_IDLE once every accepted request has been answered; with both,
DRAINED, and the stream caches are emptied (R234). -/
def State.packetDrain (s : State) (m : Nat) : State :=
  if s.bitOf (aNocFence m) 0 && !s.bitOf (aNocFence m) 1 then
    let s1 := if s.reqBusy m then s else s.setBit (aNocFence m) 2 true
    let s2 := if s.tgtBusy m then s1 else s1.setBit (aNocFence m) 3 true
    if s2.bitOf (aNocFence m) 2 && s2.bitOf (aNocFence m) 3 then
      ((s2.setBit (aNocFence m) 1 true).forEach (tilesOf m) fun s t => s.setArr t { s.arr t with cache := [] }).finishFence m
    else s2
  else s

/-- The rigging drain of a fenced region completes (R111). -/
def State.riggingDrain (s : State) (m : Nat) : State :=
  if s.bitOf (aNocFence m) 0 && !s.bitOf (aCfgRgn m) 4 && (s.rgn m).released && !s.rigBusy m then
    (s.rigDrained m).finishFence m
  else s

/-- LATE of the regions of a list whose fence has not drained (R235). -/
def State.markLate (s : State) (l : List Nat) : State :=
  s.forEach (l.filter fun m => decide (m < 16) && s.bitOf (aNocFence m) 0 && !s.bitOf (aNocFence m) 1) fun s m =>
    s.setBit (aNocFence m) 4 true

/-- Regions whose fence a command waits for. -/
def State.awaited (s : State) : List Nat := s.mci.cmds.flatMap fun c => match c.task with
  | .fence mask => masked mask
  | _ => []

/-- 1 ms has passed since the fence point that a command on channel `ch` waits on, or, where none waits there, since the
fence points that STOP has made (R235). -/
def State.fenceLate (s : State) (ch : Nat) : State :=
  let other := s.markLate ((List.range 16).filter fun m => !s.awaited.contains m)
  match s.mci.cmds.find? fun c => c.chan == ch with
  | some c => match c.task with
    | .fence mask => (s.markLate (masked mask)).complete c cFenceTimeout []
    | _ => other
  | none => other

/- Release (R293, R300). -/

/-- A CLK_GLUE edge at least 1 µs ahead, chosen freely (R293; log 7). -/
def State.chooseEdge (s : State) : State × Nat :=
  (s.draw, roundUp (s.tb + s.usTicks) s.glueTicks + s.glueTicks * Config.freeNat s.free)

/-- A release arranged. -/
def State.arrange (s : State) (r : Release) : State := { s with engine := { s.engine with releases := s.engine.releases ++ [r] } }

/-- Configured regions: those a commit has configured. A fence of an unconfigured region configures nothing. -/
def State.configuredEs (s : State) : List Nat := (List.range 16).filter s.engine.configured.contains
def State.configuredGs (s : State) : List Nat := (List.range 8).filter fun n => s.engine.configured.contains (16 + n)

/-- Lead ticks of a region: ecycles 0 to LEAD - 1 (R82). -/
def State.sendLead (s : State) (m : Nat) : State :=
  s.forEach (List.range (s.leadOf m)) fun s k => s.sendTick m k

/-- 40 ticks before the edge of the first release whose lead ticks have not been sent. -/
def State.leadTicks (s : State) : State :=
  match takeFirst (fun (r : Release) => !r.leadSent) s.engine.releases with
  | some (r, _) =>
    let s1 := (s.passTo (r.at_ - 40)).forEach r.es State.sendLead
    { s1 with engine := { s1.engine with
        releases := s1.engine.releases.map fun x => if x = r then { x with leadSent := true } else x } }
  | none => s

/- Joins (R301 to R306). -/

/-- Counts of the boundary entries of region `m` in its active half. -/
def State.boundaryCounts (s : State) (m : Nat) : List Nat :=
  (tilesOf m).flatMap fun t =>
    ((s.slots t).filter fun x => x.owner == m && x.half == s.fldOf (aRgnRig m) 0 1 && boundaryOut t x.out).map fun x =>
      s.slotCount t x.out x.half x.slot

/-- Delivery entries in the tiles of region `m` whose owner lies outside a set; those fed from an X input come from another
device (R306). -/
def State.foreign (s : State) (ms : List Nat) (t : Nat) : List Slot :=
  (s.slots t).filter fun x => decide (5 ≤ x.out) && (!ms.contains x.owner || x.srcPort == 0xF4)

def State.foreignCounts (s : State) (ms : List Nat) (m : Nat) : List Nat :=
  (tilesOf m).flatMap fun t => (s.foreign ms t).map fun x => s.slotCount t x.out x.half x.slot

/-- The largest count that a join of the set takes part with on this device (R303). -/
def State.largestCount (s : State) (ms : List Nat) : Nat :=
  (ms.flatMap fun m => s.boundaryCounts m ++ s.foreignCounts ms m).foldl max 0

/-- J of the link group of `m` when the set `ms` is released; none without a join. `given` is what the cascade master has
computed over every device. -/
def State.joinOf (s : State) (ms : List Nat) (given : Option Nat) (m : Nat) : Option Nat :=
  let g := s.group m
  if given.isSome && g.any s.crossDevice then given
  else if g.all ms.contains then none
  else some (roundUp (s.largestCount (ms.filter g.contains)) 2)

/-- The entries of a tile after the release of `m`: counts of the entries it owns in the half it uses from now on (R302). -/
def State.startCounts (s : State) (m half j t : Nat) : State :=
  let es := (s.slots t).filter fun x => x.owner == m && x.half == half && (decide (5 ≤ x.out) || boundaryOut t x.out)
  let s1 := s.setCounts m half j t
  if es.isEmpty then s1
  else
    let w := s1.sw t
    s1.setSw t { w with joinBelow := es.foldl (fun c x => mapSet (fun _ => 0) c (slotKey x.out x.half x.slot) 0) w.joinBelow }

/-- A tile of a released region: shrouds stop or go on up to J - 1, foreign deliveries discard below J (R303). -/
def State.joinTile (s : State) (ms : List Nat) (old : Nat) (j : Option Nat) (t : Nat) : State :=
  let w := s.sw t
  let keep := fun (o : Offer) => match j with
    | some x => o.half == old && decide (s.slotCount t o.out o.half o.slot < x)
    | none => false
  s.setSw t { w with
    offers := w.offers.filter keep
    joinBelow := (s.foreign ms t).foldl (fun c x => mapSet (fun _ => 0) c (slotKey x.out x.half x.slot) (j.getD 0)) w.joinBelow }

/-- The release of one emulation region at an edge: FENCE clears, period 0 begins, the half swap takes effect, RX_SEQ starts
anew, the arrays begin frame 0, the join is fixed (R293, R300, R303). -/
def State.releaseRegion (s : State) (at_ : Nat) (ms : List Nat) (m : Nat) (j : Option Nat) : State :=
  let old := s.fldOf (aRgnRig m) 0 1
  let s1 := (s.writeFence m false).swapAt m 0
  let half := s1.fldOf (aRgnRig m) 0 1
  let s2 := s1.setReg (aCfgRgn m) (putFld (putFld (putFld 0 0 3 2) 3 1 (b2n j.isSome)) 16 48 (j.getD 0))
  let base := roundUp (s2.joinEcy m) s2.ketchK
  let s3 := s2.setRgn m { s2.rgn m with released := true, s0 := at_, ticked := 0, joinOld := j, joinHalf := old, swapTick := 0, cmp := [], cmpBase := base, inNext := 0, cmpOwn := [],
                                        cmpTwin := [], haltSum := 0, haltTick := at_ }
  let s4 := s3.forEach (tilesOf m) fun s t => s.joinTile ms old j t
  let s5 := s4.forEach (List.range 64) fun s t => s.startCounts m half (j.getD 0) t
  let s6 := s5.forEach (s5.members m) fun s tc =>
    s.setReg (aRxSeq tc.1 tc.2) (s.reg (aRxSeq tc.1 tc.2) &&& (bits 9 0 ||| bits 41 32))
  let s7 := (s6.forEach (tilesOf m) State.arrReset).forEach (tilesOf m) State.capRelease
  let s7 := s7.setBr m { s7.br m with outCount := 0 }
  let s8 := if s7.bitOf (aDbgHalt m) 0 then s7.requestHalt m 0 1 0 else s7
  ((((s8.releaseYards m).regrant m 0 []).ecycleTriggers m 0)).settleHalt m

/-- GSR0 releases in a glue region: every flip-flop leaves its INIT value at this edge (R248). -/
def State.releaseGlue (s : State) (n : Nat) : State :=
  let s1 := s.setReg (aCfgRgn (16 + n)) 2
  { s1 with glue := { s1.glue with
      ffs := mapDropIf (fun k => decide (ffKey n 0 0 ≤ k ∧ k < ffKey (n + 1) 0 0)) s1.glue.ffs
      ramOut := mapDropIf (fun k => decide (ramKey n 0 false ≤ k ∧ k < ramKey (n + 1) 0 false)) s1.glue.ramOut } }

/-- Pins whose regions are released take their bound functions at this switch edge, at START every pin; those no longer bound
are freed (R268, R270, R299, R300). -/
def State.releasePins (s : State) (start : Bool) (ms : List Nat) : State :=
  let g := s.glue
  let gone := g.unbind.filter fun e => ms.contains e.1
  let bound := (List.range 256).filter fun p => start || (g.waiting.any fun e => ms.contains e.1 && e.2 == p)
  let s1 : State := { s with glue := { g with waiting := g.waiting.filter fun e => !ms.contains e.1
                                              unbind := g.unbind.filter fun e => !ms.contains e.1 } }
  let s2 := s1.forEach bound fun s p => (s.loadFlops p).switchPad p
  (s2.forEach gone fun s e => if s.claim 0 e.2 = 0 then s.freePin e.2 else s).drivePads

/-- A release at its edge. -/
def State.release1 (s : State) (r : Release) : State :=
  let s1 := s.passTo r.at_
  let s2 : State := { s1 with engine := { s1.engine with releases := s1.engine.releases.filter fun x => x != r } }
  let joins := r.es.map fun m => (m, if r.resume then s2.joinOf r.es r.join m else none)
  let s3 := s2.forEach joins fun s x => s.releaseRegion r.at_ r.es x.1 x.2
  let s4 := s3.forEach r.gs State.releaseGlue
  let s5 : State := if r.resume then s4
    else ({ s4 with glue := { s4.glue with live := true } }.setFld aCfgStatus 0 3 2).lanesStart
  let s6 := s5.releasePins (!r.resume) (r.es ++ r.gs.map fun n => 16 + n)
  let result := if r.resume then r.es.flatMap fun m => bytesOfNat 8 (s6.joinEcy m) else []
  match s6.mci.cmds.find? fun c => some c.chan == r.chan with
  | some c => match c.task with
    | .release mask => s6.complete c cOk (if r.resume then (masked mask).flatMap fun m =>
        if m < 16 then bytesOfNat 8 (s6.joinEcy m) else [] else result)
    | .csync => s6.complete c cOk (if r.resume then result else [])
    | _ => s6
  | none => s6

/-- The first release whose lead ticks have gone out, of START or of REGION_RESUME. -/
def State.releaseEdge (s : State) (resume : Bool) : State :=
  match takeFirst (fun (r : Release) => r.leadSent && r.resume == resume) s.engine.releases with
  | some (r, _) => s.release1 r
  | none => s

/-- START's own edge on this device (R290, R293, R301). -/
def State.startDevice (s : State) (chan : Option Nat) : State :=
  let e := s.chooseEdge
  e.1.arrange { at_ := e.2, resume := false, es := s.configuredEs, gs := s.configuredGs, leadSent := false, join := none, chan }

/-- STOP (R294): every configured region fenced, pads safe, GSR0 asserted, links down; unsent accesses after a failed read
are discarded (R489); row repairs that waited are made (R388). -/
def State.stopDevice (s : State) : State :=
  let es := s.configuredEs.filter fun m => (s.rgn m).released
  let s1 := s.forEach es fun s m => (s.fenceRegion m).forEach (s.members m) fun s tc =>
    let u := s.clu (cluKey tc.1 tc.2)
    if u.mmBroken then s.setClu (cluKey tc.1 tc.2) { u with mm := u.mm.filter fun a => a.phase != .waiting } else s
  let s2 := s1.forEach (s.configuredGs.filter fun n => s.rgnState (16 + n) == 2) fun s n => s.fenceRegion (16 + n)
  let s3 : State := { s2 with glue := { s2.glue with live := false } }
  let s4 := s3.lanesStop.setFld aCfgStatus 0 3 3
  let s5 := (s4.forEach s.configuredEs fun s m => if s.fenceDone m then s.afterFence m else s).drivePads
  if s5.pwr.firmware then s5.repairRows else s5

/- Commands of the fence and the release. -/

/-- RIGGING_DRAIN_COMPLETE (R111). -/
def execRiggingDrainComplete (m : Nat) (s : State) : Host.Outcome State Fault Refusal :=
  s.act fun s => if m < 16 then s.riggingDrain m else s

/-- PACKET_DRAIN_COMPLETE (R234). -/
def execPacketDrainComplete (m : Nat) (s : State) : Host.Outcome State Fault Refusal :=
  s.act fun s => if m < 16 then s.packetDrain m else s

/-- FENCE_TIMEOUT (R235, R296). -/
def execFenceTimeout (ch : Nat) (s : State) : Host.Outcome State Fault Refusal := s.act fun s => s.fenceLate ch

/-- LEAD_TICKS (R82, R293). -/
def execLeadTicks (s : State) : Host.Outcome State Fault Refusal := s.act State.leadTicks

/-- START_EDGE (R293). -/
def execStartEdge (s : State) : Host.Outcome State Fault Refusal := s.act fun s => s.releaseEdge false

/-- RESUME_EDGE (R300, R303). -/
def execResumeEdge (s : State) : Host.Outcome State Fault Refusal := s.act fun s => s.releaseEdge true

end Sys2Proof.Machine
end

