-- ==== Sys2Proof/Machine/Staging.lean ====
section
/-! DEFINITION. The configuration engine's staging (R281 to R284), loads from the SPI0 flash (R282), Halyard containers
(R283, R345), and the commits that the commands make of a retained image (R288, R297). -/

namespace Sys2Proof.Machine

/- The staging area (R190). -/

/-- First byte of the staging area, and its size. -/
def State.stageBase (s : State) : Nat := stagingGranule s.part * 0x400_0000
def stageArea : Nat := 0x1_0000_0000

/-- A staging or a flash load is in progress. -/
def State.staging (s : State) : Bool := s.engine.staging.isSome || s.engine.flash.isSome

/-- A staging begins: the retained image is gone (R284). -/
def State.dropRetained (s : State) : State :=
  { s with engine := { s.engine with retained := none } }.setBit aCfgStatus 6 false

/-- The staging ends without an image. -/
def State.abandon (s : State) : State := { s with engine := { s.engine with staging := none } }

/-- Reading the staged image corrects and counts the errors that can be corrected (R202). -/
def State.readStaged (s : State) (base n : Nat) : State :=
  s.forEach (s.badWords base n 1) fun s a => s.dramError (dramChannel a) a 1

/-- A verified image stands retained in the staging area (R284). -/
def State.retain (s : State) (base total source : Nat) : State :=
  { s with engine := { s.engine with retained := some { base, total, source } } }.setBit aCfgStatus 6 true

/-- Checks 1 to 7 of what stands staged; a verified image is retained (R284, R285). -/
def State.endStaging (s : State) (total kind source : Nat) : State × Nat :=
  let b := s.bytes s.stageBase total
  let st := s.imVerify b s.stageBase kind fun _ => true
  let s1 := (s.readStaged s.stageBase total).abandon
  let s2 := if st = cOk then s1.retain s1.stageBase total source else s1
  (s2.lastStatus st, st)

/- Commits (R288, R297). -/

/-- Checks 8 to 12, then the commit. Remaps that wait for one of its regions are applied first (R387); a region of a
partial load is LOADING meanwhile (R297). -/
def State.commitLoad (s : State) (l : Load) (base source : Nat) : State × Nat :=
  let st := s.imCheck l
  if st ≠ cOk then (s.lastStatus st, st)
  else
    let s1 := if s.pwr.firmware then s.forEach l.es State.applyRemaps else s
    let s2 := if l.full then s1
      else s1.forEach (masked l.mask) fun s m => s.setReg (aCfgRgn m) (putFld (putFld (s.reg (aCfgRgn m)) 0 3 4) 6 1 0)
    let r := (s2.readStaged base l.img.length).commit l base source
    (r.1.lastStatus r.2, r.2)

/-- A whole image as a load. -/
def loadWhole (b : List Byte) (full : Bool) : Load := { img := b, full, mask := imMask b, secs := imSects b }

/-- The device's own sub-image of a container at `base`: staged as its own full image, verified, retained and committed
(R283, R284). -/
def State.takeSub (s : State) (b : List Byte) (base source : Nat) : State × Nat :=
  match (imSects b).find? fun x => x.type_ == 0x0070 && x.region == s.pos with
  | none => (s.lastStatus cTarget, cTarget)
  | some x =>
    let st := s.imVerify x.body (base + x.off) 0 fun _ => true
    if st ≠ cOk then (s.lastStatus st, st)
    else (s.retain (base + x.off) x.body.length source).commitLoad (loadWhole x.body true) (base + x.off) source

/- Halyard (R345). -/

/-- Lanes toward the positions whose route leads away from the master, each once. -/
def State.onwardLanes (s : State) : List Nat :=
  let toMaster := if s.pos = 0 then 256 else s.fldOf (aCascRoute 0) 1 8
  let lanes := (List.range 16).filterMap fun p =>
    if p != s.pos && s.bitOf (aCascRoute p) 0 && s.fldOf (aCascRoute p) 1 8 != toMaster then
      some (s.fldOf (aCascRoute p) 1 8)
    else none
  lanes.eraseDups

/-- One Halyard entry sent on every onward lane. -/
def State.halyardOn (s : State) (offset : Nat) (data : List Byte) : State :=
  s.forEach s.onwardLanes fun s n => s.linkMsg n 4 (bytesOfNat 8 offset ++ data)

/-- A container sent to the followers, 232 bytes to an entry. -/
def State.broadcast (s : State) (b : List Byte) : State :=
  s.forEach (List.range ((b.length + 231) / 232)) fun s i => s.halyardOn (232 * i) (sub b (232 * i) 232)

/-- The retained image committed as a full one; at the master of a cascade, a container is broadcast, and the master takes
its own sub-image. -/
def State.commitRetained (s : State) : State × Nat :=
  match s.engine.retained with
  | none => (s.lastStatus cBadParam, cBadParam)
  | some r =>
    let b := s.bytes r.base r.total
    if imKind b = 0 then s.commitLoad (loadWhole b true) r.base r.source
    else if imKind b = 2 ∧ s.bitOf aCascStat 5 = true ∧ s.isMaster = true then (s.broadcast b).takeSub b r.base r.source
    else (s.lastStatus cBadParam, cBadParam)

/-- REGION_LOAD's commit of the retained image, whole or of the mask's sections (R288). -/
def State.commitPartial (s : State) (mask : Nat) (keepsPart : Bool) : State × Nat :=
  match s.engine.retained with
  | none => (s.lastStatus cBadParam, cBadParam)
  | some r =>
    let b := s.bytes r.base r.total
    if keepsPart then
      if imKind b ≤ 1 ∧ mask &&& imMask b = mask then
        s.commitLoad { img := b, full := false, mask, secs := (imSects b).filter fun x => mask.testBit x.region } r.base r.source
      else (s.lastStatus cBadParam, cBadParam)
    else if imKind b = 1 ∧ mask = imMask b then s.commitLoad (loadWhole b false) r.base r.source
    else (s.lastStatus cBadParam, cBadParam)

/-- A follower has the last byte of a container: it keeps its own sub-image (R283). -/
def State.containerDone (s : State) (total : Nat) : State × Nat :=
  let b := s.bytes s.stageBase total
  let st := s.imVerify b s.stageBase 2 fun x => x.region == s.pos
  let s1 := (s.readStaged s.stageBase total).abandon
  if st ≠ cOk then (s1.lastStatus st, st)
  else
    s1.takeSub b s1.stageBase 4

/-- BOOT_FAIL queued, with its record kept for the reset after (R404). -/
def State.bootFailed (s : State) (data : List Byte) : State :=
  let s1 : State := { s with sec := { s.sec with bootFail := some data } }
  s1.event 0xF 0xFF data

/-- A Halyard entry at a follower: sent on first, then staged; entries come in order of OFFSET. A container that begins while
another staging is in progress is refused with BUSY, which the master is told (R281). A device that boots from Halyard and
stays without a configuration queues BOOT_FAIL. -/
def State.halyardStage (s : State) (offset : Nat) (data : List Byte) : State :=
  if s.isMaster = true then s
  else if offset = 0 ∧ s.staging = true then s.mgmtSend (.halyardStatus cBusy)
  else
    let s1 := if offset = 0 then
        let g : Staging := { total := imTotal data, kind := 2, got := 0, source := 4 }
        let t := s.dropRetained
        { t with engine := { t.engine with staging := some g } }
      else s
    match s1.engine.staging with
    | none => s1
    | some g =>
      let report := fun (r : State × Nat) =>
        let s2 := r.1.mgmtSend (.halyardStatus r.2)
        if r.2 ≠ cOk ∧ leNum s2.bootRecord 6 1 = 2 ∧ s2.devState = 0 then
          s2.bootFailed (bytesOfNat 2 r.2 ++ zeros 2 ++ [1])
        else s2
      if g.source ≠ 4 then s1
      else if offset ≠ g.got ∨ data.length = 0 ∨ g.total < 64 ∨ stageArea < g.total ∨ g.total < offset + data.length then
        report (s1.abandon.lastStatus cTruncated, cTruncated)
      else
        let s2 := s1.directDram (s1.stageBase + offset) data
        let g2 : Staging := { g with got := offset + data.length }
        let s3 : State := { s2 with engine := { s2.engine with staging := some g2 } }
        if g2.got = g.total then report (s3.containerDone g.total) else s3

/- SPI0 flash (R280, R282; log 9). -/

/-- A byte of the SPI0 flash; erased flash reads 0xFF. -/
def State.spiByte (s : State) (a : Nat) : Byte := mapGet (fun _ => 0xFF) s.sec.spi a

def State.spiBytes (s : State) (a n : Nat) : List Byte := bytesAt (fun _ => 0xFF) s.sec.spi a n

/-- Byte address of a slot: 0 primary, 1 golden. -/
def State.slotAddr (s : State) (slot : Nat) : Nat := leNum s.bootRecord (8 + 4 * slot) 4

/-- The slot is read into the staging area and verified. -/
def State.loadSlot (s : State) (slot : Nat) : State × Nat :=
  let a := s.slotAddr slot
  let total := imTotal (s.spiBytes a 64)
  let s1 := s.dropRetained
  if stageArea < total then (s1.abandon.lastStatus cTruncated, cTruncated)
  else (s1.directDram s1.stageBase (s1.spiBytes a total)).endStaging total (imKind (s1.spiBytes a 64)) (2 + slot)

/-- The slot staged and committed. -/
def State.bootSlot (s : State) (slot : Nat) : State × Nat :=
  let r := s.loadSlot slot
  if r.2 = cOk then r.1.commitRetained else r

/-- The boot from flash: the primary slot, then the golden one; AUTOSTART outside a cascade. -/
def State.flashBoot (s : State) : State :=
  if !s.pwr.firmware || s.engine.booted || leNum s.bootRecord 6 1 != 1 || s.devState != 0 || s.staging then s
  else
    let r := ({ s with engine := { s.engine with booted := true } } : State).bootSlot 0
    let q := if r.2 = cOk then r else
      let g := r.1.bootSlot 1
      (if g.2 = cOk then g.1.setBit aCfgStatus 7 true
        else (g.1.setBit aCfgStatus 7 true).bootFailed (bytesOfNat 2 r.2 ++ bytesOfNat 2 g.2 ++ [0]), g.2)
    if q.2 = cOk ∧ q.1.bootFlag 0 = true ∧ q.1.isMaster = true ∧ q.1.pos = 0 ∧ q.1.bitOf aCascStat 5 = false then
      q.1.startDevice none
    else q.1

/-- A flash load that IMAGE_FROM_FLASH asked for has been read (R282). -/
def State.flashLoaded (s : State) : State :=
  match s.engine.flash with
  | none => s
  | some slot =>
    let r := ({ s with engine := { s.engine with flash := none } } : State).loadSlot slot
    r.1.completeAll (fun c => c.task == .flash) r.2

/- Commands. -/

/-- FLASH_BOOT (R282). -/
def execFlashBoot (s : State) : Host.Outcome State Fault Refusal := s.act State.flashBoot

/-- FLASH_LOAD_COMPLETE (R282). -/
def execFlashLoadComplete (s : State) : Host.Outcome State Fault Refusal :=
  s.act fun s => if s.pwr.firmware then s.flashLoaded else s

end Sys2Proof.Machine
end

