-- ==== Sys2Proof/Machine/Cascade.lean ====
section
/-! DEFINITION. Cascades (R337 to R351) and the rejoin of a Ketch pair (R359): CSYNC actions at a device, what the master
does with acknowledgements and counts, forming, lost positions, Halyard entries. -/

namespace Sys2Proof.Machine

/- Frames at a device (R341, R342). -/

/-- Every emulation region loaded and waiting for its release. -/
def State.waitingEs (s : State) : List Nat := (List.range 16).filter fun m => (s.rgn m).loaded && s.rgnState m == 1

def State.waitingGs (s : State) : List Nat := s.engine.glueLoaded.filter fun n => s.rgnState (16 + n) == 1

/-- A resync is under way at this device, and whether its regions stand frozen (R359). -/
def State.inResync (s : State) : Bool := s.role == 5 || s.ketch.resync.isSome

def State.resyncReady (s : State) : Bool := s.role == 5 || (s.ketch.resync.any fun r => r.phase == 4)

/-- Readiness for a CMD, as the status of the ACK. -/
def State.csyncReady (s : State) (cmd : Nat) : Nat :=
  if s.casc.action.any (·.committed) then cBusy
  else match cmd with
  | 2 => if s.devState = 1 then cOk else cBadParam
  | 3 => if s.devState = 2 then cOk else cBadParam
  | 4 => if s.inResync then (if s.resyncReady then cOk else cBusy) else if s.devState = 2 then cOk else cBadParam
  | 6 => if s.devState = 2 ∨ s.role = 3 ∨ s.role = 5 then cOk else cBadParam
  | _ => cOk

/-- ALIGN at a device that does not run (R341): REFCNT and the time base take their values, and a cascade is formed. -/
def State.align (s : State) (at_ seq : Nat) : State :=
  if s.devState = 2 then s.mgmtSend (.ack seq cBusy)
  else (({ s with refcnt := at_, tb := at_ * s.refTicks } : State).setBit aCascStat 5 true).setFld aCascStat 40 8 seq

/-- A frame with a given CMD is received: checked, and acknowledged when it addresses this device (R340 to R342). -/
def State.csyncFrame (s : State) (cmd : Nat) (f : BitVec 80) : State :=
  if !frShaped f || frCmd f != cmd then s
  else if !frGood f then
    let s1 := s.count aCascStat 48 8
    if s.addressed f ∧ cmd ≠ 1 then s1.mgmtSend (.ack (frSeq f) cBadParam) else s1
  else if !s.addressed f then s
  else if cmd = 1 then s.align (frAt f) (frSeq f)
  else
    let st := s.csyncReady cmd
    let a : CsyncAction := { cmd, seq := frSeq f, at_ := frAt f, committed := false, join := none }
    let s1 : State := if st = cOk then { s with casc := { s.casc with action := some a } } else s
    s1.mgmtSend (.ack (frSeq f) st)

/-- Reference edges from now to the next edge whose REFCNT[39:0] is `at_`; none for an edge that has passed. -/
def State.edgesTo (s : State) (at_ : Nat) : Nat :=
  let d := (at_ + 2 ^ 40 - s.refcnt % 2 ^ 40) % 2 ^ 40
  if d < 2 ^ 39 then d else 0

/-- Time-base tick of that edge. -/
def State.tickOf (s : State) (at_ : Nat) : Nat := (s.tb / s.refTicks + s.edgesTo at_) * s.refTicks

/-- The regions that an action releases: the master's own mask, at a follower what waits. -/
def State.releaseSet (s : State) : List Nat × List Nat :=
  match s.casc.issue with
  | some i => ((List.range 16).filter i.regions.testBit, (List.range 8).filter fun n => i.regions.testBit (16 + n))
  | none => (s.waitingEs, s.waitingGs)

/-- COMMIT (R342): the action will be performed, or AT has passed. START and RELEASE arrange their release. -/
def State.csyncCommit (s : State) (seq join : Nat) : State :=
  match s.casc.action with
  | none => s
  | some a =>
    if a.seq ≠ seq ∨ a.committed = true then s
    else if (s.refcnt + 2 ^ 40 - a.at_) % 2 ^ 40 < 2 ^ 39 then
      ({ s with casc := { s.casc with action := none } } : State).mgmtSend (.csyncMiss seq)
    else
      let j : Option Nat := if s.casc.paused.isEmpty then none else some join
      let b : CsyncAction := { a with committed := true, join := j }
      let s1 : State := { s with casc := { s.casc with action := some b } }
      let t := s1.tickOf a.at_
      let chan := s1.casc.issue.bind (·.chan)
      if a.cmd = 2 then
        s1.arrange { at_ := t, resume := false, es := s1.configuredEs, gs := s1.configuredGs, leadSent := false, join := none, chan }
      else if a.cmd = 4 ∧ s1.inResync = false then
        s1.arrange { at_ := t, resume := true, es := s1.releaseSet.1, gs := s1.releaseSet.2, leadSent := false, join := j, chan }
      else s1

/- Actions (R348, R349, R359). -/

/-- The release that a committed START or RELEASE has arranged, unless its edge has come already. -/
def State.actRelease (s : State) : State :=
  match takeFirst (fun (r : Release) => r.at_ == s.tb) s.engine.releases with
  | some (r, _) =>
    if r.leadSent then s.release1 r
    else
      let q : Release := { r with leadSent := true }
      let s1 : State := { s with engine := { s.engine with releases := s.engine.releases.map fun x => if x = r then q else x } }
      (s1.forEach r.es State.sendLead).release1 q
  | none => s

/-- A device's largest count; with the last one the master computes J and sends RELEASE (R349). -/
def State.joinCount (s : State) (pos count : Nat) : State :=
  match s.casc.issue with
  | none => s
  | some i =>
    if i.cmd ≠ 3 ∨ i.need.contains pos = false then s
    else
      let l := (s.casc.joinCounts.filter fun e => e.1 != pos) ++ [(pos, count)]
      let s1 : State := { s with casc := { s.casc with joinCounts := l } }
      if i.need.all fun p => l.any fun e => e.1 == p then
        s1.sendFrame 4 s1.present i.regions i.chan (some (roundUp (l.foldl (fun n e => max n e.2) 0) 2))
      else s1

/-- JOIN_PREP at AT: boundary entries and foreign deliveries pause, and the largest count goes to the master (R349). -/
def State.joinPrep (s : State) : State :=
  let es := s.releaseSet.1
  let n := s.largestCount es
  let s1 : State := { s with casc := { s.casc with paused := es } }
  if s1.casc.issue.isSome then s1.joinCount s1.pos n else s1.mgmtSend (.joinCount n)

/-- FREEZE at AT: every region halts at its next boundary (R359). A healthy member that has not copied its memory in bulk
does so now. -/
def State.freeze (s : State) : State :=
  if s.role = 3 ∨ s.role = 5 then
    let s1 := if s.role = 3 then s.setRole 5 0xFF 0 else s
    let k : Option Resync := s1.ketch.resync.map fun r => { r with phase := 3, frozenAt := s1.tb }
    ({ s1 with ketch := { s1.ketch with resync := k } } : State).settle
  else
    let s1 := if s.ketch.resync.isSome then s
      else
        let k : Resync := { phase := 1, member := 3 - s.member, copied := 0, passes := 0, frozenAt := 0 }
        ({ s with ketch := { s.ketch with resync := some k } } : State).bulkCopy
    let s2 := s1.forEach ((List.range 16).filter fun m => s1.rgnState m == 2) fun s m =>
      (s.requestHalt m (s.unbegun m) 1 0).settleHalt m
    let k : Option Resync := s2.ketch.resync.map fun r => { r with phase := 3, frozenAt := s2.tb }
    ({ s2 with ketch := { s2.ketch with resync := k } } : State).settle

/-- A region of the healthy member resumes from its boundary: the freeze counts as slip (R360). -/
def State.thaw (s : State) (m : Nat) : State :=
  let r := s.rgn m
  let base := roundUp (s.joinEcy m + s.slowest m) s.ketchK
  (s.setBit (aDbgHalt m) 4 false).setRgn m { r with cmp := [], cmpBase := base, cmpOwn := [], cmpTwin := [], stepping := false }

/-- A region of the rejoined member runs on from the boundary whose state was copied, on the copied S0 (R360). -/
def State.rejoinRegion (s : State) (m : Nat) : State :=
  let c := s.fldOf (aRgnEcycle m) 0 48
  let s1 := (s.writeFence m false).setFld (aCfgRgn m) 0 3 2
  let s2 := s1.forEach (s1.members m) fun s tc =>
    s.setClu (cluKey tc.1 tc.2) { s.clu (cluKey tc.1 tc.2) with period := c }
  let r := s2.rgn m
  ((s2.setRgn m { r with released := true, ticked := c }).thaw m).releaseYards m

/-- RELEASE at the end of a resync (R359): the healthy member resumes; the other one becomes standby with its fault
cleared. -/
def State.rejoin (s : State) : State :=
  let s1 := if s.role = 5 then
      let t := s.forEach s.configuredEs State.rejoinRegion
      let t1 := (t.forEach t.configuredGs State.releaseGlue).setFld aCfgStatus 0 3 2
      let t2 : State := { t1 with glue := { t1.glue with live := true } }
      let t3 := (t2.lanesStart.drivePads).setRole 2 0xFF 0
      { t3 with ketch := { t3.ketch with fault := false } }
    else s.forEach ((List.range 16).filter fun m => s.rgnState m == 2) State.thaw
  let done := s1.ketch.resync
  let s2 : State := { s1 with ketch := { s1.ketch with resync := none, twinOut := false, marking := false, marks := [] } }
  match done with
  | some r =>
    let us := (s2.tb - r.frozenAt) / s2.usTicks
    s2.forEach (s2.mci.cmds.filter fun c => c.task == .resync r.member) fun s c =>
      s.complete c cOk (bytesOfNat 8 r.copied ++ bytesOfNat 4 r.passes ++ bytesOfNat 4 us)
  | none => s2

/-- The action at its reference edge (R342). -/
def State.csyncAct (s : State) : State :=
  match s.casc.action with
  | none => s
  | some a =>
    if a.committed = false then s
    else
      let s1 := s.passTo (s.tickOf a.at_)
      let s2 := ({ s1 with casc := { s1.casc with action := none } } : State).setFld aCascStat 40 8 a.seq
      let mine := s2.casc.issue.any fun i => i.seq == a.seq
      let s3 : State := if mine && a.cmd != 3 then { s2 with casc := { s2.casc with issue := none } } else s2
      let chan := if mine then s2.casc.issue.bind (·.chan) else none
      match a.cmd with
      | 3 => s3.joinPrep
      | 5 =>
        let s4 : State := { s3 with casc := { s3.casc with ready := [] } }
        s4.stopDevice.completeAll (fun c => some c.chan == chan && c.task == .csync) cOk
      | 6 => s3.freeze
      | 4 =>
        if s3.inResync then s3.rejoin
        else
          let s4 := s3.actRelease
          { s4 with casc := { s4.casc with paused := [], joinCounts := [] } }
      | _ => s3.actRelease

/- The master (R342, R349). -/

/-- An action fails: the command it serves completes with a status; paused entries resume, a resync ends. -/
def State.csyncFail (s : State) (i : CsyncIssue) (status : Nat) : State :=
  let s1 : State := { s with casc := { s.casc with issue := none, paused := [], joinCounts := [] } }
  let s2 : State := if i.cmd = 6 ∨ (i.cmd = 4 ∧ s1.ketch.resync.isSome = true) then
      { s1 with ketch := { s1.ketch with resync := none, marking := false, marks := [] } }
    else s1
  s2.completeAll (fun c => some c.chan == i.chan && (c.task == .csync || c.task == .resync 1 || c.task == .resync 2)) status

/-- Every addressed position has answered. -/
def CsyncIssue.full (i : CsyncIssue) : Bool := i.need.all i.acks.contains

/-- An ACK at the master. A RELEASE of a resync that a device is not ready for goes out again with a new SEQ. -/
def State.csyncAck (s : State) (pos seq status : Nat) : State :=
  match s.casc.issue with
  | none => s
  | some i =>
    if i.seq ≠ seq ∨ i.need.contains pos = false ∨ i.acks.contains pos = true then s
    else if status ≠ cOk then
      if status = cBusy ∧ i.cmd = 4 ∧ s.ketch.resync.isSome = true then s.sendFrame 4 s.present i.regions i.chan i.join
      else s.csyncFail i status
    else
      let j : CsyncIssue := { i with acks := pos :: i.acks }
      let s1 : State := { s with casc := { s.casc with issue := some j } }
      if j.full ∧ 10000 ≤ s1.edgesTo i.at_ then s1.forEach i.need fun s p => s.mgmtSend (.commit p seq i.join) else s1

/-- AT less 10,000 has come without every ACK. -/
def State.ackDeadline (s : State) : State :=
  match s.casc.issue with
  | some i => if i.full then s else s.csyncFail i cAbsent
  | none => s

/-- A position is lost (R350): excluded, without routes, its relays at an end, reported. -/
def State.positionLost (s : State) (pos : Nat) : State :=
  if !s.isMaster || !s.bitOf aCascStat 5 || pos == s.pos then s
  else if pos < 16 then
    if !s.present.testBit pos then s
    else
      let s1 := ((s.setBit aCascStat (6 + pos) false).setBit aCascStat (22 + pos) true).setReg (aCascRoute pos) 0
      let s2 : State := { s1 with casc := { s1.casc with ready := s1.casc.ready.filter (· != pos) } }
      (s2.event 0xB 0xFF (bytesOfNat 1 pos)).completeAll (fun c => c.task == .relay pos) cAbsent
  else if s.casc.twins.testBit (pos - 16) then
    ({ s with casc := { s.casc with twins := s.casc.twins - 2 ^ (pos - 16) } } : State).event 0xB 0xFF (bytesOfNat 1 (pos - 16))
  else s

/- Forming (R343 to R346). -/

/-- Key of a discovered device. -/
def discKey (d : Discovery) : Nat := d.pos % 16 + 16 * b2n (d.member == 2)

/-- One route is shorter than another to the same device; of equal ones that with the lower lane (R345). -/
def discShorter (d x : Discovery) : Bool := decide (d.hops < x.hops ∨ (d.hops = x.hops ∧ d.lane < x.lane))

/-- A link measured: XLAT of its tile (R346). -/
def State.setXlat (s : State) (lane xlat : Nat) : State :=
  s.setReg (aRigXlat (quadTile (lane / 4))) (BitVec.ofNat 64 (xlat % 4096 + 4096))

/-- The link of a lane carries the RIG class. -/
def State.carriesRig (s : State) (lane : Nat) : Bool := (s.link lane).classesOn / 4 % 2 == 1

/-- Links measured whose figure no discovery message brings: half the smallest of ten round trips, a free value (R346;
log 104). -/
def State.measure (s : State) (lanes : List Nat) : State :=
  (s.forEach lanes fun t lane => t.setXlat lane (Config.freeDelay s.free lane)).draw

def State.setRoute (s : State) (pos lane hops : Nat) : State :=
  s.setReg (aCascRoute (pos % 16)) (BitVec.ofNat 64 (1 + 2 * (lane % 256) + 512 * (hops % 16)))

/-- Positions found of one member, as a mask. -/
def foundMask (l : List Discovery) : Nat := l.foldl (fun v d => v ||| 2 ^ (d.pos % 16)) 0

/-- CASCADE_FORM ends: PRESENT and EXCLUDED, the route tables, ALIGN, XLAT, and the result. -/
def State.formDone (s : State) (f : Form) : State :=
  let good := f.found.filter fun d => !f.bad.contains (discKey d)
  let own := good.filter fun d => d.member != 2
  let twins := foundMask (good.filter fun d => d.member == 2)
  let present := (if f.add then s.present else 0) ||| 2 ^ s.pos ||| foundMask own
  let wanted := f.expected ||| f.bad.foldl (fun v k => if k < 16 then v ||| 2 ^ k else v) 0
  let gone := (List.range 16).foldl (fun v p => if wanted.testBit p && !present.testBit p then v ||| 2 ^ p else v)
    (if f.add then s.fldOf aCascStat 22 16 else 0)
  let excluded := (List.range 16).foldl (fun v p => if gone.testBit p && !present.testBit p then v ||| 2 ^ p else v) 0
  let s1 := (((s.setFld aCascStat 6 16 present).setFld aCascStat 22 16 excluded).setBit aCascStat 5 true).setFld aCascStat 38 2
    (if f.pair then 1 else s.member)
  let s2 : State := { s1 with casc := { s1.casc with form := none, twins := if f.add then s1.casc.twins ||| twins else twins } }
  let s3 := s2.forEach own fun s d => (s.setRoute d.pos d.lane d.hops).mgmtSend (.discovery d)
  let s4 := s3.forEach (good.filter fun d => d.member == 2) fun s d => s.mgmtSend (.discovery d)
  let s5 := s4.sendFrame 1 (if f.add then foundMask own else present ||| twins) 0 none none
  let rig := f.links.filter fun n => s5.carriesRig n
  let near := own.filter fun d => d.hops == 1 && rig.contains d.lane
  let s6 := (s5.measure (rig.filter fun n => !near.any fun d => d.lane == n)).forEach near fun s d => s.setXlat d.lane d.xlat
  let missing := (List.range 16).any fun p => (f.expected.testBit p && !present.testBit p) || (f.bExpected.testBit p && !twins.testBit p)
  let status := if !f.bad.isEmpty then cBadParam else if missing then cAbsent else cOk
  let result := bytesOfNat 2 present ++ bytesOfNat 2 twins ++ rig.flatMap fun n =>
    bytesOfNat 1 n ++ [0] ++ bytesOfNat 2 (s6.fldOf (aRigXlat (quadTile (n / 4))) 0 12)
  s6.forEach (s6.mci.cmds.filter fun c => c.chan == f.chan && c.task == .form) fun s c => s.complete c status result

/-- A discovery message: the master records and checks the position; a follower takes the word about itself or its route,
and relays every other (R343 to R345). Each end of a RIG link takes its measurement (R346). -/
def State.discovery (s : State) (d : Discovery) : State :=
  match s.casc.form with
  | some f =>
    let k := discKey d
    if 16 ≤ d.pos ∨ !(if d.member = 2 then f.bExpected else f.expected).testBit d.pos ∨ (d.member ≠ 2 ∧ d.pos = s.pos) then s
    else
      let twice := f.found.any fun x => discKey x == k && x.id != d.id
      let again := f.found.any fun x => discKey x == k && x.id == d.id
      let differs := d.part != 0x9640 || d.stepping != s.part.stepping || d.speed15 != s.part.speed15
      let g : Form := { f with
        found := if again then f.found.map fun x => if discKey x == k && x.id == d.id && discShorter d x then d else x
          else if twice then f.found else f.found ++ [d]
        bad := if (twice || differs) && !f.bad.contains k then f.bad ++ [k] else f.bad }
      let all := (List.range 16).all fun p =>
        (!f.expected.testBit p || p == s.pos || g.found.any fun x => discKey x == p) &&
        (!f.bExpected.testBit p || g.found.any fun x => discKey x == 16 + p)
      let s1 : State := { s with casc := { s.casc with form := some g } }
      if all then s1.formDone g else s1
  | none =>
    if 16 ≤ d.pos then s
    else if d.pos = s.pos ∧ (s.isMaster = false ∨ d.member = 2) then
      let s1 := ((s.setRoute 0 d.lane d.hops).setFld aCascStat 38 2 d.member).setFld aMastStat 2 2 0
      let rig := (s1.links.map (·.1)).filter fun n => s1.lnActive n && s1.carriesRig n
      let s2 := s1.measure (rig.filter (· != d.lane))
      if s1.carriesRig d.lane then s2.setXlat d.lane d.xlat else s2
    else if s.isMaster ∧ d.member ≠ 2 then s
    else
      let s1 := s.setRoute d.pos d.lane d.hops
      (if d.hops = 1 ∧ s1.carriesRig d.lane = true then s1.setXlat d.lane d.xlat else s1).mgmtSend (.discovery d)

/-- The formation timeout with positions missing (R343). -/
def State.formTimeout (s : State) : State :=
  match s.casc.form with
  | some f => s.formDone f
  | none => s

/- Halyard (R283, R345, R359). -/

/-- A Halyard entry is taken from the link that received it, and its place there is free again (R318). -/
def State.takeHalyard (s : State) (payload : List Byte) : State :=
  match s.links.find? fun e => e.2.inbox.any fun x => x.cls == 4 && x.bytes == payload with
  | some e => s.takeMsg e.1 4 payload
  | none => s

/-- Resync data at the member out of service: OFFSET is an address of the internal map; above the map the entry holds a unit's
contents, whose layout the spec does not give (R360; log 57). -/
def State.resyncData (s : State) (offset : Nat) (data : List Byte) : State :=
  let s1 := if s.role = 5 then s else s.setRole 5 0xFF 0
  if 2 ^ 48 ≤ offset then s1.setUnit (Config.resyncUnit offset data)
  else if offset < 0x14_0000_0000 then s1.store offset data
  else
    s1.forEach (List.range (data.length / 8)) fun s i =>
      s.setReg (offset + 8 * i) (BitVec.ofNat 64 (leNum data (8 * i) 8))

/-- A Halyard entry is received: sent on unchanged before anything else, then staged or taken as resync data. -/
def State.halyardEntry (s : State) (offset : Nat) (data : List Byte) : State :=
  if 232 < data.length then s
  else
    let s1 := s.takeHalyard (bytesOfNat 8 offset ++ data)
    if s.role = 5 ∨ (s.role = 3 ∧ s.devState = 1 ∧ s.engine.staging.isNone = true) then s1.resyncData offset data
    else (s1.halyardOn offset data).halyardStage offset data

/-- A device's status after a broadcast (R283): OK stands for READY. -/
def State.halyardStatus (s : State) (pos status : Nat) : State :=
  let rest := s.casc.ready.filter (· != pos)
  if s.isMaster && decide (pos < 32) then
    { s with casc := { s.casc with ready := if status = cOk then rest ++ [pos] else rest } }
  else s

/- Commands. -/

/-- CSYNC_ALIGN (R341). -/
def execCsyncAlign (frame : BitVec 80) (s : State) : Host.Outcome State Fault Refusal := s.act fun s => s.csyncFrame 1 frame

/-- CSYNC_START (R348). -/
def execCsyncStart (frame : BitVec 80) (s : State) : Host.Outcome State Fault Refusal := s.act fun s => s.csyncFrame 2 frame

/-- CSYNC_JOIN_PREP (R349). -/
def execCsyncJoinPrep (frame : BitVec 80) (s : State) : Host.Outcome State Fault Refusal :=
  s.act fun s => s.csyncFrame 3 frame

/-- CSYNC_RELEASE (R349). -/
def execCsyncRelease (frame : BitVec 80) (s : State) : Host.Outcome State Fault Refusal :=
  s.act fun s => s.csyncFrame 4 frame

/-- CSYNC_STOP (R349). -/
def execCsyncStop (frame : BitVec 80) (s : State) : Host.Outcome State Fault Refusal := s.act fun s => s.csyncFrame 5 frame

/-- CSYNC_FREEZE (R359). -/
def execCsyncFreeze (frame : BitVec 80) (s : State) : Host.Outcome State Fault Refusal := s.act fun s => s.csyncFrame 6 frame

/-- CSYNC_ACK (R342). -/
def execCsyncAck (pos seq status : Nat) (s : State) : Host.Outcome State Fault Refusal :=
  s.act fun s => s.csyncAck pos seq status

/-- CSYNC_COMMIT (R342). -/
def execCsyncCommit (seq join : Nat) (s : State) : Host.Outcome State Fault Refusal := s.act fun s => s.csyncCommit seq join

/-- CSYNC_ACTION (R342). -/
def execCsyncAction (s : State) : Host.Outcome State Fault Refusal := s.act State.csyncAct

/-- CSYNC_ACK_DEADLINE (R342). -/
def execCsyncAckDeadline (s : State) : Host.Outcome State Fault Refusal := s.act State.ackDeadline

/-- JOIN_COUNT_REPORT (R349). -/
def execJoinCountReport (pos count : Nat) (s : State) : Host.Outcome State Fault Refusal :=
  s.act fun s => s.joinCount pos count

/-- POSITION_LOST (R350). -/
def execPositionLost (pos : Nat) (s : State) : Host.Outcome State Fault Refusal := s.act fun s => s.positionLost pos

/-- HALYARD_ENTRY (R345). -/
def execHalyardEntry (offset : Nat) (data : List Byte) (s : State) : Host.Outcome State Fault Refusal :=
  s.act fun s => s.halyardEntry offset data

/-- HALYARD_STATUS_REPORT (R283). -/
def execHalyardStatusReport (pos status : Nat) (s : State) : Host.Outcome State Fault Refusal :=
  s.act fun s => s.halyardStatus pos status

/-- DISCOVERY_MESSAGE (R343). -/
def execDiscoveryMessage (m : Discovery) (s : State) : Host.Outcome State Fault Refusal := s.act fun s => s.discovery m

/-- CASCADE_FORM_TIMEOUT (R343). -/
def execCascadeFormTimeout (s : State) : Host.Outcome State Fault Refusal := s.act State.formTimeout

end Sys2Proof.Machine
end

