-- ==== Sys2Proof/Machine/Security.lean ====
section
/-! DEFINITION. Identity and attestation (R416 to R421), life cycle (R422, R423), debug unlock (R424, R425), firmware
packages and the start of the firmware (R426 to R428), the flash that commands write (R412, R413). -/

namespace Sys2Proof.Machine

/-- A payload has the length of a layout, or that length rounded up to 8 with zero bytes (R402). -/
def fits (p : List Byte) (n : Nat) : Bool := (p.length == n || p.length == roundUp n 8) && allZero (p.drop n)

/-- A command that is over without a result. -/
def State.over (s : State) (status : Nat) : State × Reply := (s, .done status [])

/-- A field of `n` bytes, filled up with zeros. -/
def padTo (n : Nat) (b : List Byte) : List Byte := (b ++ zeros n).take n

/- Identity (R416, R417). -/

/-- FLAGS and fields shared by the identity block and the report. -/
def State.identityBlock (s : State) : List Byte :=
  let p := s.part
  ascii "ZIDN" ++ bytesOfNat 2 0x9640 ++ bytesOfNat 1 p.stepping ++ bytesOfNat 1 (if p.speed15 then 15 else 12) ++
  bytesOfNat 1 (if p.gradeX then 0x58 else 0x45) ++ bytesOfNat 1 (if p.dram64 then 64 else 32) ++
  bytesOfNat 1 s.sec.lifecycle ++ bytesOfNat 1 (p.cascId % 16 + 16 * b2n p.masterLow) ++ zeros 4 ++ s.deviceId ++
  bytesOfNat 4 s.sec.fwVersion ++ bytesOfNat 4 s.sec.fwSvn ++ bytesOfNat 4 p.romVersion ++ zeros 28

/-- IDENTIFY (R417). -/
def State.cmdIdentify (s : State) (p : List Byte) : State × Reply :=
  if fits p 0 then (s, .done cOk (s.identityBlock ++ sha3 s.part.idKey)) else s.over cBadParam

/- Attestation (R418 to R421). -/

/-- Bytes 0 to 607 of a report (R420). -/
def State.report (s : State) (nonce : List Byte) : List Byte :=
  let c := s.sec
  let flags := b2n c.unlocked + 2 * b2n (s.bitOf aCfgStatus 7) + 4 * b2n c.fallback
  ascii "ZATT" ++ bytesOfNat 2 1 ++ bytesOfNat 1 c.lifecycle ++ bytesOfNat 1 flags ++ s.deviceId ++ nonce ++
  bytesOfNat 4 c.fwVersion ++ bytesOfNat 4 c.fwSvn ++ bytesOfNat 4 c.minSvn ++ bytesOfNat 4 c.tamperCount ++
  bytesOfNat 8 s.tb ++ bytesOfNat 4 (s.fldOf aCfgCommit 0 32) ++ bytesOfNat 1 s.devState ++ zeros 3 ++ padTo 32 c.fwHash ++
  padTo 32 c.vendorHash ++ padTo 32 c.customerHash ++ padTo 16 s.engine.fullBuild ++ padTo 32 s.engine.fullHash ++
  ((List.range 16).flatMap fun m => padTo 16 (s.rgn m).buildId) ++
  (List.range 8).flatMap fun n => padTo 16 (mapGet (fun _ => []) s.engine.glueBuild n)

/-- The certificate (R421). -/
def State.certificate (s : State) : List Byte :=
  ascii "ZCRT" ++ bytesOfNat 2 1 ++ zeros 2 ++ s.deviceId ++ padTo 1312 s.part.idKey ++ padTo 2420 s.part.certSig

/-- ATTEST: the report signed with the identity key and fresh randomness (R416; log 7), or the certificate. -/
def State.cmdAttest (s : State) (p : List Byte) : State × Reply :=
  if !fits p 36 || decide (1 < leNum p 32 4) then s.over cBadParam
  else if leNum p 32 4 = 1 then (s, .done cOk s.certificate)
  else
    let r := s.report (sub p 0 32)
    (s.draw, .done cOk (r ++ padTo 2420 (Config.identitySignature s.free r)))

/- Tokens (R415, R425). -/

/-- Status of a token with a MAGIC: form, key and signature, device and challenge. -/
def State.tokenStatus (s : State) (t magic : List Byte) (keySel : Nat) (formOk : Bool) : Nat :=
  let key := sub t 64 1312
  if !(sub t 0 4 == magic && leNum t 4 2 == 1 && allZero (sub t 52 12) && formOk) then cBadParam
  else if !(leNum t 6 1 == keySel && s.keyHash keySel == some (sha3 key) &&
      mlVerify key (sub t 0 1376) (sub t 1376 2420)) then cSignature
  else if !(sub t 8 8 == s.deviceId && s.sec.challenge == some (sub t 16 32)) then cLocked
  else cOk

/-- The challenge is used up. -/
def State.dropChallenge (s : State) : State := { s with sec := { s.sec with challenge := none } }

/-- DEBUG_UNLOCK (R424, R425). -/
def State.cmdDebugUnlock (s : State) (p : List Byte) : State × Reply :=
  let sub0 := leNum p 0 1
  if !allZero (sub p 1 7) || decide (2 < sub0) then s.over cBadParam
  else if s.sec.lifecycle = 4 then s.over cLifecycle
  else if sub0 = 0 then
    if !(p.length == 1 || fits p 8) then s.over cBadParam
    else
      let ch := (List.range 32).map fun i => Config.freeByte (s.free + i)
      ({ s with sec := { s.sec with challenge := some ch }, free := s.free + 32 }, .done cOk ch)
  else if sub0 = 2 then (if p.length == 1 || fits p 8 then s.endUnlock.over cOk else s.over cBadParam)
  else if s.sec.lifecycle < 2 then s.dropChallenge.over cOk
  else if !fits p (8 + 3796) then s.dropChallenge.over cBadParam
  else
    let t := (p.drop 8).take 3796
    let d := leNum t 48 4
    let st := s.tokenStatus t (ascii "ZDBG") (if s.sec.lifecycle = 2 then 1 else 0)
      (decide (leNum t 7 1 < 16 ∧ 1 ≤ d ∧ d ≤ 604800))
    let s1 := s.dropChallenge
    if st = cOk then ({ s1 with sec := { s1.sec with unlocked := true, scope := leNum t 7 1 } } : State).over cOk else s1.over st

/- Life cycle (R422, R423). -/

/-- Every DRAM granule and scratchpad zero, every region UNCONFIGURED, no retained image. -/
def State.clearDesigns (s : State) : State :=
  let s1 := s.clearMem 0 0x10_0800_0000
  let s2 : State := { s1 with ecc := mapDropIf (fun k => decide (k < 0x10_0800_0000)) s1.ecc }
  let s3 := s2.forEach (List.range 24) fun s m => s.setFld (aCfgRgn m) 0 3 0
  let s4 := s3.forEach (List.range 16) fun s m => s.setRgn m { pwrTarget := (s.rgn m).pwrTarget }
  s4.abandon.dropRetained

/-- A transition in its order. -/
def State.lifeTo (s : State) (to_ : Nat) (hash : List Byte) : State :=
  let old := s.sec.lifecycle
  let s1 := s.wipe
  let s2 := if 3 ≤ to_ then s1.clearDesigns else s1
  let s3 := s2.endUnlock.dropChallenge
  let c := s3.sec
  let s4 : State := { s3 with sec := { c with lifecycle := to_, keyErased := c.keyErased || to_ == 4,
                                              customerHash := if to_ = 1 then hash else c.customerHash } }
  s4.event 0x11 0xFF (bytesOfNat 1 old ++ bytesOfNat 1 to_)

/-- Length of LIFECYCLE_SET's payload for a target: the key hash for DEVELOP, the token for RETURN, TARGET alone or with the
place of the hash zero otherwise. -/
def lifeFits (p : List Byte) (to_ : Nat) : Bool :=
  allZero (sub p 1 7) &&
  if to_ = 1 then fits p 40 else if to_ = 3 then fits p (40 + 3796) && allZero (sub p 8 32)
  else (p.length == 1 || p.length == 8 || p.length == 40) && allZero (p.drop 1)

/-- LIFECYCLE_SET (R423). -/
def State.cmdLifecycleSet (s : State) (p : List Byte) : State × Reply :=
  let to_ := leNum p 0 1
  let old := s.sec.lifecycle
  if p.length = 0 ∨ lifeFits p to_ = false then s.over cBadParam
  else if !((decide (to_ = old + 1) && decide (to_ ≤ 3)) || (decide (to_ = 4) && decide (old < 4))) then s.over cLifecycle
  else if s.devState = 1 ∨ s.devState = 2 then s.over cBusy
  else if to_ = 1 ∧ allZero (sub p 8 32) = true then s.over cBadParam
  else if to_ = 3 then
    let t := (p.drop 40).take 3796
    let st := s.tokenStatus t (ascii "ZLCT") 1 (leNum t 7 1 == 0 && leNum t 48 4 == 0)
    if st = cOk then (s.lifeTo 3 []).over cOk else s.dropChallenge.over st
  else (s.lifeTo to_ (sub p 8 32)).over cOk

/- Firmware (R374, R426 to R428). -/

def slotBase (i : Nat) : Nat := 0x17_0010_0000 + 0x10_0000 * i

/-- Checks of a package: its form, key and signature, code, security version. -/
def State.packageStatus (s : State) (b : List Byte) : Nat :=
  let n := leNum b 16 4
  let key := sub b (64 + n) 1312
  if !(sub b 0 4 == ascii "ZFWP" && leNum b 4 2 == 1 && leNum b 6 1 == 0 && allZero (sub b 7 1) && allZero (sub b 20 12) &&
      n % 64 == 0 && decide (3796 + n ≤ 0x10_0000) && b.length == 3796 + n) then cBadParam
  else if !(s.keyHash 0 == some (sha3 key) && mlVerify key (sub b 0 64 ++ key) (sub b (1376 + n) 2420)) then cSignature
  else if sha3 (sub b 64 n) != sub b 32 32 then cHash
  else if leNum b 12 4 < s.sec.minSvn then cLocked
  else cOk

/-- The package in a slot. -/
def State.slotPackage (s : State) (i : Nat) : List Byte := s.bytes (slotBase i) (3796 + s.num (slotBase i + 16) 4 % 0x10_0000)

/-- The firmware of manufacture: slot A, which no package has been written into (log 9). -/
def State.madeFirmware (s : State) (i : Nat) : Bool := i == 0 && allZero (s.bytes (slotBase 0) 64)

/-- The boot ROM accepts a slot. -/
def State.slotBoots (s : State) (i : Nat) : Bool := s.madeFirmware i || s.packageStatus (s.slotPackage i) == cOk

/-- The boot ROM's choice: the pending slot, else the active one, else the other. -/
def State.chosenSlot (s : State) : Option (Nat × Bool) :=
  let first := s.sec.pendingSlot.getD s.sec.active
  if s.slotBoots first then some (first, false)
  else if s.slotBoots (1 - first) then some (1 - first, true) else none

/-- The firmware of a slot runs: its identity, MIN_SVN, the active slot. -/
def State.runFirmware (s : State) (i : Nat) (fell : Bool) : State :=
  let b := if s.madeFirmware i then zeros 64 else s.bytes (slotBase i) 64
  let c := s.sec
  { s with
    pwr := { s.pwr with firmware := true, started := true }
    sec := { c with active := i, pendingSlot := none, fallback := fell, fwVersion := leNum b 8 4, fwSvn := leNum b 12 4,
                    fwHash := sub b 32 32, minSvn := max c.minSvn (leNum b 12 4) } }

/-- What the firmware does first after a device reset: the repair map is applied, and records of a tamper trip and of a
failed boot are queued again (R374, R404, R429). -/
def State.firmwareBegins (s : State) : State :=
  let s1 := s.forEach s.health.kept fun s e => s.setReg e.1 e.2
  let s2 := s1.forEach s1.health.remaps fun s tc => s.applyRemap tc.1 tc.2
  let s3 := match s2.sec.tamperRec with
    | some r =>
      let t := s2.event 0x10 0xFF r
      { t with sec := { t.sec with tamperRec := none, tamperCount := (t.sec.tamperCount + 1) % 2 ^ 32 } }
    | none => s2
  match s3.sec.bootFail with
  | some r =>
    let t := s3.event 0xF 0xFF r
    { t with sec := { t.sec with bootFail := none } }
  | none => s3

/-- FW_UPDATE (R427, R428). -/
def State.cmdFwUpdate (s : State) (c : MciCmd) (p : List Byte) : State × Reply :=
  let n := 3796 + leNum p 24 4
  let activate := leNum p 0 4 == 1
  if decide (1 < leNum p 0 4) || !allZero (sub p 4 4) || !fits p (8 + n) then s.over cBadParam
  else if activate && s.mci.cmds.any (fun x => x.chan != c.chan) then s.over cBusy
  else
    let b := (p.drop 8).take n
    let st := s.packageStatus b
    if st ≠ cOk then s.over st
    else
      let i := 1 - s.sec.active
      let s1 := s.putMem (slotBase i) b
      if s.defects.any fun a => decide (slotBase i ≤ a ∧ a < slotBase i + n) then s1.over cInternal
      else
        let s2 : State := { s1 with sec := { s1.sec with pendingSlot := some i } }
        if activate then ({ s2 with pwr := { s2.pwr with firmware := false } }, .wait .fwRestart)
        else (s2, .done cOk (bytesOfNat 4 s2.sec.fwVersion))

/- FLASH_WRITE (R412, R413). -/

/-- A boot record without a reserved value. -/
def bootRecordOk (b : List Byte) : Bool :=
  sub b 0 4 == ascii "ZBRC" && leNum b 4 2 == 1 && decide (leNum b 6 1 ≤ 2 ∧ leNum b 7 1 ≤ 1 ∧ leNum b 16 4 < 8) &&
  leNum b 8 4 % 0x1_0000 == 0 && leNum b 12 4 % 0x1_0000 == 0 && leNum b 20 4 % 0x1_0000 == 0 &&
  (List.range 4).all (fun i => let r := sub b (88 + 16 * i) 16
    (linkRecOf r).mode == 0 || ((linkRecOf r).mode == 1 && linkRecOk r (leNum b 16 4 / 2 % 2 == 1))) &&
  allZero (sub b 152 100) && leNum b 252 4 == crc32 (b.take 252)

/-- FLASH_WRITE: refused with BUSY while a flash load is staging. -/
def State.cmdFlashWrite (s : State) (p : List Byte) : State × Reply :=
  let target := leNum p 0 1
  let golden := leNum p 1 1
  let a := leNum p 8 8
  let d := p.drop 16
  let ga := s.slotAddr 1
  let gl := leNum s.bootRecord 20 4
  if p.length ≤ 16 ∨ 2 < target ∨ 1 < golden ∨ allZero (sub p 2 6) = false then s.over cBadParam
  else if target = 2 then
    if a ≠ 0 ∨ d.length ≠ 256 ∨ bootRecordOk d = false then s.over cBadParam else (s.putMem 0x17_0000_0000 d).over cOk
  else if target = 1 then
    if 0x10_0000 < a + d.length then s.over cBadParam
    else if s.engine.flash.isSome then s.over cBusy else (s.putMem (0x17_0030_0000 + a) d).over cOk
  else if 2 ^ 32 < a + d.length then s.over cBadParam
  else if decide (a < ga + gl ∧ ga < a + d.length) && (golden == 0 || s.sec.lifecycle == 2 || s.sec.lifecycle == 3) then
    s.over cLocked
  else if s.engine.flash.isSome then s.over cBusy
  else ({ s with sec := { s.sec with spi := putBytes (fun _ => 0xFF) s.sec.spi a d } } : State).over cOk

end Sys2Proof.Machine
end

