-- ==== Sys2Proof/Machine/Commands.lean ====
section
/-! DEFINITION. What each command of R401 does once its descriptor has been accepted: payload checks, refusals, effect and
result. Identity, security and flash commands stand in Security.lean. -/

namespace Sys2Proof.Machine

/-- The mask at the head of a payload, and whether its top byte is 0. -/
def maskOf (p : List Byte) : Nat := leNum p 0 4
def maskOk (p : List Byte) : Bool := decide (maskOf p < 2 ^ 24)
def eMaskOk (p : List Byte) : Bool := decide (maskOf p < 2 ^ 16)

/- Status and events (R403, R404). -/

/-- STATUS (R403). -/
def State.cmdStatus (s : State) (p : List Byte) : State × Reply :=
  if !fits p 0 then s.over cBadParam
  else
    let r := bytesOfNat 1 s.devState ++ bytesOfNat 1 s.level ++ bytesOfNat 1 s.sec.lifecycle ++ [0] ++
      bytesOfNat 4 s.events.queue.length ++ bytesOfNat 4 (s.fldOf aCfgCommit 0 32) ++ zeros 4 ++ padTo 16 s.engine.fullBuild ++
      (List.range 24).flatMap fun m => bytesOfNat 8 (s.reg (aCfgRgn m)).toNat
    (s, .done cOk r)

/-- EVENT_READ (R404): records leave the queue, oldest first; EVENTS_LOST takes the first place that frees. -/
def State.cmdEventRead (s : State) (p : List Byte) : State × Reply :=
  let n := leNum p 0 2
  if !fits p 2 || decide (n = 0 ∨ 84 < n) then s.over cBadParam
  else
    let e := s.events
    let taken := e.queue.take n
    let s1 : State := { s with events := { e with queue := e.queue.drop n } }
    let s2 := if 0 < e.lost ∧ s1.events.queue.length < 960 ∧ taken.isEmpty = false then
        ({ s1 with events := { s1.events with lost := 0 } } : State).event 0x13 0xFF (bytesOfNat 4 (e.lost % 2 ^ 32))
      else s1
    (s2, .done cOk (taken.flatMap eventBytes))

/- Images (R281 to R288). -/

/-- IMAGE_BEGIN. -/
def State.cmdImageBegin (s : State) (p : List Byte) : State × Reply :=
  if !fits p 9 then s.over cBadParam
  else if s.staging then s.over cBusy
  else if stageArea < leNum p 0 8 ∨ 2 < leNum p 8 1 then s.over cBadParam
  else
    let g : Staging := { total := leNum p 0 8, kind := leNum p 8 1, got := 0, source := 1 }
    let t := s.dropRetained
    ({ t with engine := { t.engine with staging := some g } } : State).over cOk

/-- IMAGE_DATA: an offset out of order, or bytes past TOTAL_LEN, abandon the staging. -/
def State.cmdImageData (s : State) (p : List Byte) : State × Reply :=
  let d := p.drop 8
  match s.engine.staging with
  | none => s.over cBadParam
  | some g =>
    if p.length ≤ 8 ∨ g.source ≠ 1 then s.over cBadParam
    else if leNum p 0 8 ≠ g.got ∨ g.total < g.got + d.length then (s.abandon.lastStatus cBadParam).over cBadParam
    else
      let s1 := s.directDram (s.stageBase + g.got) d
      let g2 : Staging := { g with got := g.got + d.length }
      ({ s1 with engine := { s1.engine with staging := some g2 } } : State).over cOk

/-- IMAGE_END: checks 1 to 7 (R285). -/
def State.cmdImageEnd (s : State) (p : List Byte) : State × Reply :=
  match s.engine.staging with
  | none => s.over cBadParam
  | some g =>
    if !fits p 0 || g.source != 1 then s.over cBadParam
    else if g.got ≠ g.total then (s.abandon.lastStatus cTruncated).over cTruncated
    else
      let r := s.endStaging g.total g.kind 1
      r.1.over r.2

/-- IMAGE_COMMIT (R286, R288). -/
def State.cmdImageCommit (s : State) (p : List Byte) : State × Reply :=
  if !fits p 0 then s.over cBadParam
  else
    let r := s.commitRetained
    r.1.over r.2

/-- IMAGE_FROM_FLASH (R282): the load ends with FLASH_LOAD_COMPLETE. -/
def State.cmdImageFromFlash (s : State) (p : List Byte) : State × Reply :=
  if !fits p 1 || decide (1 < leNum p 0 1) then s.over cBadParam
  else if s.staging then s.over cBusy
  else ({ s.dropRetained with engine := { s.dropRetained.engine with flash := some (leNum p 0 1) } }, .wait .flash)

/- START and STOP (R290, R293, R294, R348, R349). -/

/-- This device is the master of a formed cascade. -/
def State.leads (s : State) : Bool := s.bitOf aCascStat 5 && s.isMaster

/-- Present positions that have not reported READY, as a mask. -/
def State.notReady (s : State) : Nat :=
  (List.range 16).foldl (fun v p =>
    let bad := s.present.testBit p && (if p = s.pos then s.devState != 1 else !s.casc.ready.contains p)
    let twin := s.casc.twins.testBit p && !s.casc.ready.contains (16 + p)
    if bad || twin then v ||| 2 ^ p else v) 0

/-- START. -/
def State.cmdStart (s : State) (c : MciCmd) (p : List Byte) : State × Reply :=
  if !fits p 0 || (s.configuredEs.any fun m => s.rgnState m == 5) then s.over cBadParam
  else if s.leads then
    if s.notReady ≠ 0 then (s, .done cBadParam (bytesOfNat 2 s.notReady))
    else (s.sendFrame 2 s.present 0xFF_FFFF (some c.chan) none, .wait .csync)
  else if s.devState ≠ 1 then s.over cBadParam
  else (s.startDevice (some c.chan), .wait (.release 0xFF_FFFF))

/-- STOP. -/
def State.cmdStop (s : State) (c : MciCmd) (p : List Byte) : State × Reply :=
  if !fits p 0 then s.over cBadParam
  else if s.devState ≠ 2 then s.over cOk
  else if s.leads then (s.sendFrame 5 s.present 0xFF_FFFF (some c.chan) none, .wait .csync)
  else s.stopDevice.over cOk

/- Halts, steps and triggers (R437 to R446). -/

/-- RUN (R440). -/
def State.cmdRun (s : State) (p : List Byte) : State × Reply :=
  if !fits p 4 || !eMaskOk p then s.over cBadParam
  else
    let ms := masked (maskOf p)
    if ms.any fun m => s.rgnState m == 5 then s.over cBadParam
    else if ms.any s.fenced then s.over cFenced
    else (s.forEach ms State.dbgRun).over cOk

/-- HALT (R438). -/
def State.cmdHalt (s : State) (p : List Byte) : State × Reply :=
  let at_ := leNum p 8 8
  if !fits p 16 || !eMaskOk p || !allZero (sub p 4 4) || decide (2 ^ 48 ≤ at_) then s.over cBadParam
  else
    let ms := masked (maskOf p)
    if ms.any s.fenced then s.over cFenced
    else if at_ = 0 then (s.forEach ms State.haltReq, .wait (.halt (maskOf p)))
    else
      (s.forEach ms fun s m => (s.setReg (aDbgAt m) (BitVec.ofNat 64 (at_ + 2 ^ 48))).settleHalt m, .wait (.halt (maskOf p)))

/-- STEP (R439). -/
def State.cmdStep (s : State) (p : List Byte) : State × Reply :=
  let unit := leNum p 4 1
  let n := leNum p 8 4
  if !fits p 12 || !eMaskOk p || !allZero (sub p 5 3) || decide (1 < unit ∨ n = 0 ∨ 2 ^ 20 ≤ n) then s.over cBadParam
  else
    let ms := masked (maskOf p)
    if ms.any s.fenced then s.over cFenced
    else (s.forEach ms State.haltReq, .wait (.step (maskOf p) unit n false))

/-- BREAK_SET (R446). -/
def State.cmdBreakSet (s : State) (p : List Byte) : State × Reply :=
  match breakTarget p with
  | none => s.over cBadParam
  | some (kind, i, m) => if s.fenced m then s.over cFenced else (s.breakWrite p kind i).over cOk

/- Regions (R295 to R300, R377). -/

/-- REGION_FENCE. -/
def State.cmdRegionFence (s : State) (p : List Byte) : State × Reply :=
  if !fits p 4 || !maskOk p then s.over cBadParam
  else
    let todo := (masked (maskOf p)).filter fun m => s.rgnState m != 3 && !(decide (m < 16) && s.fenceDone m)
    (s.forEach todo State.fenceRegion, .wait (.fence (maskOf p)))

/-- REGION_LOAD. -/
def State.cmdRegionLoad (s : State) (p : List Byte) : State × Reply :=
  let part := leNum p 4 4 == 1
  if !fits p 8 || !maskOk p || decide (1 < leNum p 4 4) then s.over cBadParam
  else if (part ∧ maskOf p = 0) ∨ (maskOf p ≠ 0 ∧ (masked (maskOf p)).all fun m => s.rgnState m == 1) then s.over cOk
  else
    let r := s.commitPartial (maskOf p) part
    r.1.over r.2

/-- The region has been committed by a REGION_LOAD since its latest fence. -/
def State.isLoaded (s : State) (m : Nat) : Bool :=
  s.rgnState m == 1 && (if m < 16 then (s.rgn m).loaded else s.engine.glueLoaded.contains (m - 16))

/-- REGION_RESUME: a link group that spans devices goes through the cascade's master (R349). -/
def State.cmdRegionResume (s : State) (c : MciCmd) (p : List Byte) : State × Reply :=
  let mask := maskOf p
  let todo := (masked mask).filter fun m => s.rgnState m != 2
  let es := todo.filter fun m => decide (m < 16)
  if !fits p 4 || !maskOk p || s.devState != 2 || !todo.all s.isLoaded then s.over cBadParam
  else if todo.isEmpty then
    (s, .done cOk ((masked mask).flatMap fun m => if m < 16 then bytesOfNat 8 (s.joinEcy m) else []))
  else if s.bitOf aCascStat 5 && es.any (fun m => (s.group m).any s.crossDevice) then
    if !s.isMaster then s.over cBadParam
    else
      let whole := es.all fun m => (s.group m).all fun n => mask.testBit n && s.rgnState n != 2
      let regions := todo.foldl (fun v m => v + 2 ^ m) 0
      (s.sendFrame (if whole then 4 else 3) s.present regions (some c.chan) none, .wait .csync)
  else
    let e := s.chooseEdge
    (e.1.arrange { at_ := e.2, resume := true, es, gs := (todo.filter fun m => decide (16 ≤ m)).map (· - 16), leadSent := false,
                   join := none, chan := some c.chan }, .wait (.release mask))

/-- REGION_POWER: regions already in the state are left alone (R295). -/
def State.cmdRegionPower (s : State) (p : List Byte) : State × Reply :=
  let st := leNum p 4 1
  if !fits p 5 || !eMaskOk p || decide (2 < st) then s.over cBadParam
  else
    let todo := (masked (maskOf p)).filter fun m => s.domainOf m != st
    if todo.any fun m => !(s.fenceDone m && (s.rgnState m == 3 || s.rgnState m == 5)) || (s.domainOf m == 2 && st == 1) then
      s.over cBadParam
    else (s.forEach todo fun s m => s.powerBegin m st, .wait (.power (maskOf p)))

/- Capture and trace (R458, R461). -/

/-- CAPTURE_SET: the result shows the units as they stand before. -/
def State.cmdCaptureSet (s : State) (p : List Byte) : State × Reply :=
  let tiles := (List.range 64).filter (leNum p 0 8).testBit
  let base := leNum p 8 8
  let size := leNum p 16 4
  let half := leNum p 20 1
  let flags := leNum p 21 1
  let at_ := fun (t : Nat) => base + size * tiles.findIdx (· == t)
  if !fits p 24 || !allZero (sub p 22 2) || decide (1 < half ∨ 3 < flags) then s.over cBadParam
  else if !tiles.isEmpty && (size == 0 || size % 4096 != 0 || decide (0x1000_0000 < size) || base % 4096 != 0 ||
      !tiles.all fun t => s.ownedBy 0x10 (at_ t) size) then s.over cBadParam
  else
    let r := tiles.flatMap fun t => bytesOfNat 8 (s.reg (aCapStat t)).toNat ++ bytesOfNat 8 (s.reg (aCapCnt t)).toNat
    let s1 := s.forEach (List.range 64) fun s t =>
      if tiles.contains t then
        s.capConfig t (BitVec.ofNat 64 (1 + 2 * half + 4 * (flags % 2) + 8 * (flags / 2) + at_ t % 2 ^ 48 + 2 ^ 48 * (size / 4096 % 65536)))
      else s.capConfig t (putFld (s.reg (aCapCfg t)) 0 1 0)
    (s1, .done cOk r)

/-- TRACE_SET: the sources are off first, and the rest waits for the funnel to drain. -/
def State.cmdTraceSet (s : State) (p : List Byte) : State × Reply :=
  if !fits p 176 || !s.traceOk p then s.over cBadParam else (s.ttAllOff, .wait .drainTrace)

/- State access (R406). -/

/-- The ranges of R206 that STATE_READ and STATE_WRITE reach, as base and end; then the two that are locked. -/
def stateRanges : List (Nat × Nat) :=
  [(0, 0x10_0000_0000), (0x10_0000_0000, 0x10_0800_0000), (0x11_0000_0000, 0x11_E980_0000), (0x12_0000_0000, 0x12_0218_2000),
   (0x13_0000_0000, 0x13_0100_0000), (0x14_0000_0000, 0x15_0000_0000), (0x15_0000_0000, 0x15_0400_0000),
   (0x15_0800_0000, 0x15_0800_0400), (0x15_1000_0000, 0x15_2000_0000)]

def lockedRanges : List (Nat × Nat) := [(0x16_0000_0000, 0x16_0004_0000), (0x17_0000_0000, 0x17_0040_0000)]

/-- Status of a range before anything is performed. -/
def rangeStatus (a n : Nat) : Nat :=
  if lockedRanges.any fun r => decide (a < r.2 ∧ r.1 < a + n) then cLocked
  else if stateRanges.any fun r => decide (r.1 ≤ a ∧ a + n ≤ r.2) then cOk else cBadParam

/-- STATE_READ and STATE_WRITE. -/
def State.cmdStateAccess (s : State) (p : List Byte) (write : Bool) : State × Reply :=
  let a := leNum p 0 8
  let n := leNum p 8 4
  let formed := if write then decide (16 ≤ p.length) && allZero (sub p 12 4) && p.length == 16 + n else fits p 12
  if !formed || decide (n < 8 ∨ 0x100_0000 < n ∨ n % 8 ≠ 0) then s.over cBadParam
  else
    let st := rangeStatus a n
    if st ≠ cOk then s.over st
    else (s, .wait (.access write a n 0 [] false))

/- Lanes (R326, R330). -/

/-- The links in force or recorded that a record changes: those that share a lane with it. -/
def State.linksUnder (s : State) (r : LinkRec) : List Nat :=
  (s.links.filter fun e => (e.2.conf.toList ++ e.2.recorded.toList).any r.meets).map (·.1)

/-- A region that neither is fenced nor stopped. -/
def State.runsFree (s : State) (m : Nat) : Bool := s.devState == 2 && !s.fenced m

/-- The fence of a region is in force and its drain is not complete: the firmware releases none of its granules (R235). -/
def State.drains (s : State) (m : Nat) : Bool := s.bitOf (aNocFence m) 0 && !s.bitOf (aNocFence m) 1

/-- LANE_SET. -/
def State.cmdLaneSet (s : State) (p : List Byte) : State × Reply :=
  let bs := recs 16 p
  let rs := bs.map linkRecOf
  if p.length % 16 ≠ 0 ∨ bs.length = 0 ∨ 36 < bs.length ∨ bs.all (fun b => linkRecOk b (s.bitOf aMastStat 4)) = false ∨
      s.ratesOk rs = false then s.over cBadParam
  else if rs.any fun r => (List.range r.lanes).any fun i => 1 < s.claim 1 (r.first + i) then s.over cOwned
  else if rs.any fun r => (s.linksUnder r).any fun n => (s.linkRegions n).any s.runsFree then s.over cBusy
  else
    (s.forEach rs fun s r =>
      (s.forEach ((s.linksUnder r).filter (· != r.first)) State.takeDown).laneSet r).over cOk

/-- LANE_STATUS. -/
def State.cmdLaneStatus (s : State) (p : List Byte) : State × Reply :=
  let first := leNum p 0 1
  let n := leNum p 1 1
  if !fits p 2 || decide (n = 0 ∨ 125 < n ∨ 144 < first + n) then s.over cBadParam
  else
    (s, .done cOk ((List.range n).flatMap fun i => [aLnStat, aLnPartner, aLnCnt, aLnMon].flatMap fun f =>
      bytesOfNat 8 (s.reg (f (first + i))).toNat))

/-- The counts of errors and bits of a test, 16 bytes a lane: free values (log 7). -/
def State.laneCounts (s : State) (t : LaneTest) : List Byte :=
  (List.range t.lanes.length).flatMap fun i =>
    bytesOfNat 8 (Config.freeWord s.free (2 * i)).toNat ++ bytesOfNat 8 (Config.freeWord s.free (2 * i + 1)).toNat

/-- A LANE_TEST ends: its command completes with the counts, and every link still in TEST begins anew. -/
def State.laneTestEnd (s : State) (n : Nat) : State :=
  match (s.link n).test with
  | none => s
  | some t =>
    let s1 := s.draw.setLink n { s.link n with test := none }
    let s2 := s1.forEach (n :: (s.links.filter fun e => (e.2.conf.map fun c => t.lanes.any c.covers).getD false).map (·.1)) fun s i =>
      if s.lnState i ≠ 6 then s
      else s.setFld (aLnStat i) 0 3 (match (s.link i).conf with
        | some c => if c.mode = 1 then 1 else 3
        | none => 0)
    s2.forEach (s2.mci.cmds.filter fun c => c.task == .laneTest n) fun s2 c => s2.complete c cOk (s.laneCounts t)

/-- LANE_TEST: the lanes go to TEST; MODE 0 ends the test that runs on the link, with its counts (log 93). -/
def State.cmdLaneTest (s : State) (c : MciCmd) (p : List Byte) : State × Reply :=
  let first := leNum p 0 1
  let w := leNum p 1 1
  let ms := leNum p 4 4
  let r : LinkRec := { first, width := w, mode := 1, rate := 0, classes := 0, flags := 0, errLimit := 1, idleUs := 0, sleepMs := 0, densMin := 0 }
  let j := first % 36
  let tested := s.links.any fun e => match e.2.test with
    | some t => t.lanes.any r.covers
    | none => false
  if !fits p 8 || decide (144 ≤ first ∨ 4 < w ∨ 3 < leNum p 2 1 ∨ 2 < leNum p 3 1 ∨ ms = 0 ∨ 60000 < ms ∨ j % r.lanes ≠ 0 ∨ 36 < j + r.lanes) then
    s.over cBadParam
  else if (s.linksUnder r).any fun n => s.lnActive n then s.over cBusy
  else if leNum p 2 1 = 0 then match (s.link first).test with
    | some t => (s.laneTestEnd first, .done cOk (s.laneCounts t))
    | none => (s, .done cOk (zeros (16 * r.lanes)))
  else if tested || s.lnState first == 6 then s.over cBusy
  else
    let l := s.link first
    let t : LaneTest := { mode := leNum p 2 1, pattern := leNum p 3 1, chan := c.chan,
                          lanes := (List.range r.lanes).map (first + ·), durationMs := ms }
    ((s.setLink first { l with test := some t }).forEach (first :: s.linksUnder r) fun s n => s.setFld (aLnStat n) 0 3 6,
      .wait (.laneTest first))

/- Cascades and Ketch pairs (R343, R351 to R353, R359). -/

/-- A management link of CASCADE_FORM: one that is up or on its way under the same record stays as it is; every other link
under its lanes ends (R343, R351). -/
def State.ensureUp (s : State) (r : LinkRec) : State :=
  if (s.link r.first).conf = some r ∧ s.lnState r.first ≠ 0 then s.setLink r.first { s.link r.first with mgmt := true }
  else (s.forEach ((s.linksUnder r).filter (· != r.first)) State.takeDown).bringUp r true

/-- CASCADE_FORM. -/
def State.cmdCascadeForm (s : State) (c : MciCmd) (p : List Byte) : State × Reply :=
  let flags := leNum p 2 2
  let add := flags % 2 == 1
  let pair := flags / 2 == 1
  let ms := leNum p 4 4
  let bExp := leNum p 8 2
  let n := leNum p 10 2
  let bs := recs 16 (p.drop 16)
  if p.length < 16 ∨ p.length ≠ 16 + 16 * n ∨ 3 < flags ∨ ms < 1000 ∨ 10000 < ms ∨ allZero (sub p 12 4) = false ∨
      (pair = true ∧ bExp ≠ leNum p 0 2) ∨ (pair = false ∧ bExp ≠ 0) ∨ s.isMaster = false ∨ s.pos ≠ 0 ∨
      bs.all (fun b => (linkRecOf b).mode == 1 && linkRecOk b (s.bitOf aMastStat 4)) = false ∨
      s.ratesOk (bs.map linkRecOf) = false then s.over cBadParam
  else if s.casc.form.isSome || (s.devState == 2 && !add) then s.over cBusy
  else
    let rs := bs.map linkRecOf
    let f : Form := { chan := c.chan, expected := leNum p 0 2, bExpected := bExp, add, pair, links := rs.map (·.first), found := [],
                      bad := [] }
    let s1 := (s.setFld aMastStat 2 2 0).forEach rs State.ensureUp
    let s2 : State := { s1 with casc := { s1.casc with form := some f } }
    if (List.range 16).all fun q => (!f.expected.testBit q || q == s2.pos) && !f.bExpected.testBit q then
      (({ s2 with mci := { s2.mci with cmds := s2.mci.cmds.map fun x => if x.chan = c.chan then { x with task := .form } else x } } :
        State).formDone f, .wait .form)
    else (s2, .wait .form)

/-- KETCH_SET: the compare parameters; the member takes its first role, A active and B standby. -/
def State.cmdKetchSet (s : State) (p : List Byte) : State × Reply :=
  let m := leNum p 0 1
  let k := leNum p 1 1
  let t := leNum p 2 1
  let kl := leNum p 3 1
  let rl := leNum p 4 1
  if !fits p 5 || decide (m = 0 ∨ m ≠ s.member ∨ 16 < k ∨ t = 0 ∨ 144 ≤ kl ∨ 144 ≤ rl) then s.over cBadParam
  else
    let s1 := s.setReg aKetchCfg (BitVec.ofNat 64 (k + 2 ^ 8 * t + 2 ^ 16 * kl + 2 ^ 24 * rl))
    (if s1.role = 0 then s1.setRole m 0xFF 0 else s1).over cOk

/-- The twin of every position has reported READY. -/
def State.twinsReady (s : State) : Bool := (List.range 16).all fun p => !s.casc.twins.testBit p || s.casc.ready.contains (16 + p)

/-- KETCH_RESYNC. -/
def State.cmdKetchResync (s : State) (c : MciCmd) (p : List Byte) : State × Reply :=
  let m := leNum p 0 1
  let own := m == s.member
  if !fits p 1 || decide (m = 0 ∨ 2 < m) || !s.leads || s.member != 1 then s.over cBadParam
  else if s.role = 4 then s.over cKetch
  else if s.ketch.resync.isSome || !s.lnActive (s.fldOf aKetchCfg 24 8) ||
      (if own then s.role != 3 || s.devState != 1 else !s.ketch.twinOut || !s.twinsReady) then s.over cBadParam
  else
    let k : Resync := { phase := 1, member := m, copied := 0, passes := 0, frozenAt := 0 }
    let s1 : State := { s with ketch := { s.ketch with resync := some k } }
    let s2 := if own then s1.setRole 5 0xFF 0 else s1.bulkCopy.dirtyPasses
    (s2.sendFrame 6 s2.present 0 (some c.chan) none, .wait (.resync m))

/- Power and clocks (R364, R372, R378 to R383). -/

/-- POWER_CAP. -/
def State.cmdPowerCap (s : State) (p : List Byte) : State × Reply :=
  let w := leNum p 0 2
  if !fits p 2 || decide (w < 150 ∨ 700 < w) then s.over cBadParam else (s.setFld aReefCfg 16 10 w).over cOk

/-- REEF_POLICY. -/
def State.cmdReefPolicy (s : State) (p : List Byte) : State × Reply :=
  let t := leNum p 0 1
  let h := leNum p 1 1
  let l := leNum p 2 1
  let strict := leNum p 3 1
  if !fits p 4 || decide (t < 70 ∨ 100 < t ∨ h < 2 ∨ 15 < h ∨ 4 < l ∨ 1 < strict) then s.over cBadParam
  else
    (s.setReg aReefCfg (putFld (putFld (putFld (putFld (s.reg aReefCfg) 0 8 t) 8 4 h) 12 1 strict) 13 3 l)).over cOk

/-- A divider that CLOCK_SET names, or the one in force. -/
def divOr (new old : Nat) : Nat := if new = 0 then old else new

/-- CLOCK_SET: FORCE beyond the ratio limits leaves every rule without force until a device reset. -/
def State.cmdClockSet (s : State) (p : List Byte) : State × Reply :=
  let force := leNum p 0 1 == 1
  let spread := leNum p 1 1
  let d := (List.range 4).map fun i => leNum p (2 + i) 1
  let row := (List.range 4).map fun i => divOr (d.getD i 0) (s.clk.row.getD i 0)
  let changes := d.any (· != 0)
  if !fits p 6 || decide (1 < leNum p 0 1 ∨ 2 < spread) then s.over cBadParam
  else if spread ≠ 0 ∧ (s.bitOf aMastStat 4 = true ∨ s.bitOf aCascStat 5 = true) then s.over cBadParam
  else if changes && s.devState == 2 then s.over cBusy
  else if d.getD 0 0 ≠ 0 ∧ d.getD 0 0 < (if s.part.speed15 then 8 else 10) then s.over cBadParam
  else if changes && !force && !ratiosOk row then s.over cBadParam
  else
    let s1 := s.setFld aMastStat 2 2 spread
    let s2 := if changes then s1.setRow row else s1
    ({ s2 with clk := { s2.clk with undef := s2.clk.undef || (changes && !ratiosOk row) } } : State).over cOk

/-- SENSORS_READ. -/
def State.cmdSensorsRead (s : State) (p : List Byte) : State × Reply :=
  if !fits p 0 then s.over cBadParam
  else
    let r := ((List.range 64).flatMap fun t => bytesOfNat 2 (s.fldOf (aTileSens t) 0 12) ++ bytesOfNat 2 (s.fldOf (aTileSens t) 24 12) ++
        bytesOfNat 2 (s.fldOf (aTileAge t) 0 16) ++ zeros 2) ++
      bytesOfNat 2 s.pwr.ioTemp0 ++ bytesOfNat 2 s.pwr.ioTemp1 ++
      ((List.range 4).flatMap fun k => bytesOfNat 2 (tempCode (mapGet (fun _ => 0) s.stackTemps k))) ++
      bytesOfNat 8 (s.reg aPwrEst).toNat ++ bytesOfNat 1 s.level
    (s, .done cOk r)

/- Claims and pins (R408, R410). -/

/-- Resources of each kind. -/
def kindCount : Nat → Nat
  | 0 => 256
  | 1 => 144
  | 2 => 8
  | 3 => 3
  | 4 => 16
  | 5 => 256
  | 6 => 1024
  | _ => 0

/-- The resource is free. -/
def State.isFree (s : State) (kind i : Nat) : Bool :=
  if kind = 6 then s.ownerOf (i * 0x400_0000) == 0x1F && !s.health.withdrawn.contains i
  else s.claim kind i == 0 && (kind != 1 || s.links.all fun e => !e.2.mgmt || !(s.linkLanes e.1).contains i)

/-- The owner code of a granule. -/
def State.setOwner (s : State) (g code : Nat) : State := s.putMem (0x15_0800_0000 + g) [BitVec.ofNat 8 code]

/-- A payload of R408 in order: KIND, OWNER, INDEX, COUNT; none where it is refused with BAD_PARAM. -/
def claimOf (p : Part) (b : List Byte) : Option (Nat × Nat × Nat × Nat) :=
  let kind := leNum b 0 1
  let owner := leNum b 1 1
  let i := leNum b 4 4
  let n := leNum b 8 4
  let most := if kind = 6 ∧ p.dram64 = false then 512 else kindCount kind
  if fits b 12 && allZero (sub b 2 2) && decide (kind ≤ 6 ∧ (owner = 0x10 ∨ (owner < 16 ∧ kind = 6)) ∧ 1 ≤ n ∧ i + n ≤ most) then
    some (kind, owner, i, n)
  else none

/-- RESOURCE_CLAIM. -/
def State.cmdResourceClaim (s : State) (p : List Byte) : State × Reply :=
  match claimOf s.part p with
  | none => s.over cBadParam
  | some (kind, owner, i, n) =>
    let l := (List.range n).map (i + ·)
    if !l.all (s.isFree kind) then s.over cOwned
    else (s.forEach l fun s k => if kind = 6 then s.setOwner k owner else s.setClaim kind k 1).over cOk

/-- RESOURCE_RELEASE. -/
def State.cmdResourceRelease (s : State) (p : List Byte) : State × Reply :=
  match claimOf s.part p with
  | none => s.over cBadParam
  | some (kind, owner, i, n) =>
    let l := (List.range n).map (i + ·)
    if !l.all fun k => if kind = 6 then s.ownerOf (k * 0x400_0000) == owner else s.claim kind k == 1 then s.over cNotOwner
    else if kind = 6 ∧ owner < 16 ∧ (s.runsFree owner || s.drains owner) = true then s.over cBusy
    else
      (s.forEach l fun s k =>
        if kind = 6 then s.setOwner k 0x1F
        else
          let s1 := s.setClaim kind k 0
          if kind = 0 then s1.freePin k else s1).over cOk

/-- FUNC codes that R265 allows an owner that GPIO_CONFIG may name. -/
def funcsFor : Nat → List Nat
  | 1 => [0, 2, 3, 4, 5]
  | 3 => [1, 2, 3, 4, 5]
  | 6 => [0, 7]
  | _ => []

/-- A pin of HOST or of glue logic uses a DCO or a serial block only under a claim of it, HOST's own for a HOST pin (R272;
log 103). -/
def State.blockClaimed (s : State) (v : W64) : Bool :=
  let ok := fun h => if fld v 4 3 = 1 then h == 1 else h != 0
  match fld v 0 3 with
  | 2 | 3 | 4 => ok (s.claim 3 (fld v 0 3 - 2))
  | 5 => ok (s.claim 2 (fld v 24 6 % 8))
  | _ => true

/-- GPIO_CONFIG. -/
def State.cmdGpioConfig (s : State) (p : List Byte) : State × Reply :=
  let rs := (recs 16 p).map fun b => (leNum b 0 2, BitVec.ofNat 64 (leNum b 8 8), allZero (sub b 2 6))
  let rw := bits 2 0 ||| bits 6 4 ||| bits 14 8 ||| bits 29 16 ||| bits 36 32 ||| bits 63 63
  if p.length % 16 ≠ 0 ∨ rs.length = 0 ∨ 252 < rs.length ∨
      rs.any (fun r => decide (255 < r.1) || !r.2.2 || r.2.1 &&& ~~~rw != 0 || fld r.2.1 10 2 == 3 || fld r.2.1 12 2 == 3 || fld r.2.1 4 3 == 7) =
        true then s.over cBadParam
  else if rs.any fun r => s.claim 0 r.1 != 1 then s.over cNotOwner
  else if rs.any fun r => !(funcsFor (fld r.2.1 4 3)).contains (fld r.2.1 0 3) then s.over cBadParam
  else if rs.any (fun r => fld r.2.1 4 3 == 6) && !s.jtagScope 3 then s.over cLocked
  else if rs.any fun r => !s.blockClaimed r.2.1 then s.over cNotOwner
  else (s.forEach rs fun s r => s.setPinCfg r.1 r.2.1).over cOk

/- Health (R387, R388). -/

/-- HEALTH_REPORT. -/
def State.cmdHealthReport (s : State) (p : List Byte) : State × Reply :=
  let w := s.health.withdrawn
  if !fits p 0 then s.over cBadParam
  else (s, .done cOk (s.capacityMap ++ bytesOfNat 2 w.length ++ w.flatMap (bytesOfNat 2)))

/-- A remap of a tile's cluster may be applied: its region is fenced, the device does not run, or the member is out of
service. -/
def State.mayRemap (s : State) (t : Nat) : Bool :=
  s.devState != 2 || s.fenceDone (regionOfTile t) || s.role == 3

/-- REPAIR: the number of repairs applied. -/
def State.cmdRepair (s : State) (p : List Byte) : State × Reply :=
  let kind := leNum p 0 1
  let tile := leNum p 1 1
  let here := fun (t : Nat) => tile == 0xFF || t == tile
  if !fits p 2 || decide (1 < kind ∨ (63 < tile ∧ tile ≠ 0xFF)) then s.over cBadParam
  else
    let s1 := if kind = 0 then
        s.forEach (s.health.remaps.filter fun tc => here tc.1 && s.mayRemap tc.1) fun s tc => s.applyRemap tc.1 tc.2
      else s.forEach (s.health.rows.filter fun a => here (channelTile (dramChannel a))) State.repairRow
    let n := if kind = 0 then s.health.remaps.length - s1.health.remaps.length else s.health.rows.length - s1.health.rows.length
    (s1, .done cOk (bytesOfNat 4 n))

end Sys2Proof.Machine
end

