-- ==== Sys2Proof/Machine/Mci.lean ====
section
/-! DEFINITION. The mailbox channels as commands arrive and are run (R391 to R402): refusals that come before a command's own
rule, relays, commands held while the firmware restarts, and BAR0 writes. -/

namespace Sys2Proof.Machine

/- Before a command's own rule (R392, R393, R397 to R399, R402, R422). -/

/-- The opcodes of R401. -/
def opcodes : List Nat :=
  [0x01, 0x02, 0x03, 0x10, 0x11, 0x12, 0x13, 0x14, 0x15, 0x20, 0x21, 0x22, 0x23, 0x24, 0x25, 0x30, 0x31, 0x32, 0x33, 0x40, 0x41,
   0x42, 0x43, 0x50, 0x51, 0x52, 0x60, 0x61, 0x62, 0x70, 0x71, 0x72, 0x73, 0x80, 0x81, 0x82, 0x90, 0x91, 0xA0, 0xA1, 0xA2, 0xA3]

/-- Number of ones among the first `n` bits. -/
def onesIn (n v : Nat) : Nat := ((List.range n).filter v.testBit).length

/-- Result bytes that a command may produce (R401). -/
def State.resultSize (s : State) (op : Nat) (p : List Byte) : Nat :=
  match op with
  | 0x01 => 96
  | 0x02 => 224
  | 0x03 => 48 * min (leNum p 0 2) s.events.queue.length
  | 0x20 => if s.leads && s.notReady != 0 then 2 else 0
  | 0x23 | 0x24 => 16 * onesIn 16 (leNum p 0 4)
  | 0x32 => 8 * onesIn 16 (leNum p 0 4)
  | 0x40 => 16 * onesIn 64 (leNum p 0 8)
  | 0x42 => 16 + leNum p 8 4
  | 0x43 => 16
  | 0x51 => 32 * leNum p 1 1
  | 0x52 => 16 * 2 ^ leNum p 1 1
  | 0x60 => 4 + 4 * leNum p 10 2
  | 0x62 => 16
  | 0x73 => 533
  | 0x90 => 2066 + 2 * s.health.withdrawn.length
  | 0x91 => 4
  | 0xA0 => if leNum p 32 4 = 1 then 3748 else 3028
  | 0xA2 => 4
  | 0xA3 => if leNum p 0 1 = 0 then 32 else 0
  | _ => 0

/-- Regions whose state a command changes (R397). -/
def cmdRegions (op : Nat) (p : List Byte) : Nat :=
  if op = 0x20 ∨ op = 0x21 ∨ op = 0x13 ∨ op = 0x62 then 0xFF_FFFF
  else if op = 0x22 ∨ op = 0x23 ∨ op = 0x24 ∨ op = 0x30 ∨ op = 0x31 ∨ op = 0x32 ∨ op = 0x33 then maskOf p % 2 ^ 24
  else 0

/-- The command is under way: neither held nor waiting for its payload. -/
def MciCmd.underWay (c : MciCmd) : Bool := c.task != .held && c.task != .heldPtr && c.task != .payload

/-- The descriptor in a channel has a reserved bit or byte set, a length beyond its limit or an address out of line. -/
def State.descBad (s : State) (c : MciCmd) : Bool :=
  if 16 ≤ c.chan then false
  else
    let b := s.bytes (chanBase c.chan) 64
    let plen := leNum b 8 4
    c.desc.flags &&& 0xF0F0 != 0 || !allZero (sub b 36 28) || decide ((if descPtr c.desc then 0x100_0000 else 4032) < plen) ||
    (descPtr c.desc && leNum b 16 8 % 64 != 0) || (descRptr c.desc && leNum b 24 8 % 64 != 0)

/-- Commands that END state still takes (R422). -/
def endOpcodes : List Nat := [0x01, 0x02, 0x03, 0x73, 0x90]

/-- Commands of the master, which are not relayed (R399). -/
def masterOpcodes : List Nat := [0x20, 0x21, 0x60, 0x62]

/-- The command is relayed: to a position other than the device's own. -/
def State.relays (s : State) (c : MciCmd) : Bool := decide (c.chan < 16) && descRelay c.desc && descDev c.desc != s.pos

/-- The status of a command refused before its own rule. -/
def State.refusal (s : State) (c : MciCmd) : Option Nat :=
  let op := c.opcode
  let p := c.desc.payload
  let far := decide (c.chan < 16) && (descPtr c.desc || (descRptr c.desc && decide (0 < s.resultSize op p)))
  if s.descBad c then some cBadParam
  else if far && !s.hostReach then some cTimeout
  else if !opcodes.contains op then some cBadOpcode
  else if s.sec.lifecycle == 4 && !endOpcodes.contains op then some cLifecycle
  else if 16 ≤ c.chan ∧ masterOpcodes.contains op = true then some cBadParam
  else if c.chan < 16 ∧ (if descRptr c.desc then c.desc.rmax else 4032) < s.resultSize op p then some cBadParam
  else if s.relays c then
    if masterOpcodes.contains op then some cBadParam
    else if s.leads && s.present.testBit (descDev c.desc) then none else some cAbsent
  else if s.mci.cmds.any fun x => x.chan != c.chan && x.underWay && cmdRegions x.opcode x.desc.payload &&& cmdRegions op p != 0 then
    some cBusy
  else none

/-- The rule of a command. -/
def State.perform (s : State) (c : MciCmd) : State × Reply :=
  let p := c.desc.payload
  match c.opcode with
  | 0x01 => s.cmdIdentify p
  | 0x02 => s.cmdStatus p
  | 0x03 => s.cmdEventRead p
  | 0x10 => s.cmdImageBegin p
  | 0x11 => s.cmdImageData p
  | 0x12 => s.cmdImageEnd p
  | 0x13 => s.cmdImageCommit p
  | 0x14 => s.cmdImageFromFlash p
  | 0x15 => s.cmdFlashWrite p
  | 0x20 => s.cmdStart c p
  | 0x21 => s.cmdStop c p
  | 0x22 => s.cmdRun p
  | 0x23 => s.cmdHalt p
  | 0x24 => s.cmdStep p
  | 0x25 => s.cmdBreakSet p
  | 0x30 => s.cmdRegionFence p
  | 0x31 => s.cmdRegionLoad p
  | 0x32 => s.cmdRegionResume c p
  | 0x33 => s.cmdRegionPower p
  | 0x40 => s.cmdCaptureSet p
  | 0x41 => s.cmdTraceSet p
  | 0x42 => s.cmdStateAccess p false
  | 0x43 => s.cmdStateAccess p true
  | 0x50 => s.cmdLaneSet p
  | 0x51 => s.cmdLaneStatus p
  | 0x52 => s.cmdLaneTest c p
  | 0x60 => s.cmdCascadeForm c p
  | 0x61 => s.cmdKetchSet p
  | 0x62 => s.cmdKetchResync c p
  | 0x70 => s.cmdPowerCap p
  | 0x71 => s.cmdReefPolicy p
  | 0x72 => s.cmdClockSet p
  | 0x73 => s.cmdSensorsRead p
  | 0x80 => s.cmdResourceClaim p
  | 0x81 => s.cmdResourceRelease p
  | 0x82 => s.cmdGpioConfig p
  | 0x90 => s.cmdHealthReport p
  | 0x91 => s.cmdRepair p
  | 0xA0 => s.cmdAttest p
  | 0xA1 => s.cmdLifecycleSet p
  | 0xA2 => s.cmdFwUpdate c p
  | 0xA3 => s.cmdDebugUnlock p
  | _ => s.over cBadOpcode

/-- The firmware runs a command: it completes, or waits. An EVENT_READ that leaves the queue non-empty signals vector 16
(R404). -/
def State.runCmd (s : State) (c : MciCmd) : State :=
  match s.refusal c with
  | some st => s.complete c st []
  | none =>
    if s.relays c then
      (s.mgmtSend (.relay (descDev c.desc) c.opcode c.desc.payload)).retask c (.relay (descDev c.desc))
    else
      let r := s.perform c
      match r.2 with
      | .done st res =>
        let s1 := r.1.complete c st res
        if c.opcode = 0x03 ∧ st = cOk ∧ s1.events.queue.isEmpty = false then s1.msix 16 else s1
      | .wait t => (r.1.retask c t).settle

/-- A command stands in its channel. -/
def State.addCmd (s : State) (c : MciCmd) : State := { s with mci := { s.mci with cmds := s.mci.cmds ++ [c] } }

/-- A command enters its channel and runs, or is held until the firmware does (R400). -/
def State.beginCmd (s : State) (c : MciCmd) : State :=
  let s1 := s.addCmd c
  if !s1.pwr.firmware then s1
  else if c.task = .heldPtr then
    let s2 := s1.retask c .payload
    if s2.hostReach then
      { s2 with host := { s2.host with reads := s2.host.reads ++ [{ tag := s2.hostTag, chan := c.chan, req := none }] } }
    else (s2.count aHpStat 8 16).complete c cTimeout []
  else s1.runCmd c

/-- Host writes to a busy channel or its doorbell are not performed, and counted (R394). -/
def State.ignWrite (s : State) (n : Nat) : State := (s.count aDbIgn 0 16).setFld aDbIgn 16 4 n

/-- The descriptor, and an inline payload, written to a channel (R391, R392). -/
def State.mailed (s : State) (op : Nat) (d : Desc) : State :=
  let s1 := s.putMem (chanBase d.chan) (descBytes op d)
  if descPtr d then s1 else s1.putMem (chanBase d.chan + 0x40) (d.payload.take 4032)

/-- The host's command on a channel: descriptor, payload and doorbell (R391 to R393). A payload in host memory counts as
fetched. -/
def State.mciHost (s : State) (op : Nat) (d : Desc) : State :=
  if 16 ≤ d.chan then s
  else if s.bitOf aDbBusy d.chan then s.ignWrite d.chan
  else ((s.mailed op d).setBit aDbBusy d.chan true).beginCmd { chan := d.chan, opcode := op, desc := d, task := .held }

/-- A command that the cascade master has relayed to this device (R399); one at a time (log 52). -/
def State.relayed (s : State) (op : Nat) (payload : List Byte) : State :=
  if s.isMaster then s
  else if s.mci.cmds.any fun c => c.chan == 16 then s.mgmtSend (.relayReply op cBusy [])
  else
    let d : Desc := { chan := 16, flags := 0, tag := 0, raddr := 0, rmax := 0, payload }
    s.beginCmd { chan := 16, opcode := op, desc := d, task := .held }

/- BAR0 (R210, R391, R394, R395). -/

/-- A doorbell bit: the command that stands in the channel's mailbox. -/
def State.ring (s : State) (n : Nat) : State :=
  if s.bitOf aDbBusy n then s.ignWrite n
  else
    let b := s.bytes (chanBase n) 64
    let flags := BitVec.ofNat 16 (leNum b 2 2)
    let ptr := flags.getLsbD 0
    let plen := leNum b 8 4
    let bad := decide ((if ptr then 0x100_0000 else 4032) < plen) || (ptr && leNum b 16 8 % 64 != 0)
    let d : Desc := { chan := n, flags, tag := BitVec.ofNat 16 (leNum b 4 2), raddr := BitVec.ofNat 64 (leNum b 24 8),
                      rmax := leNum b 32 4, payload := if ptr || bad then [] else s.bytes (chanBase n + 0x40) plen }
    (s.setBit aDbBusy n true).beginCmd { chan := n, opcode := leNum b 0 2, desc := d, task := if ptr && !bad then .heldPtr else .held }

/-- A 32-bit write in the doorbell block. -/
def State.doorbell (s : State) (off : Nat) (v : Nat) : State :=
  if off = 0x1_0000 then s.forEach ((List.range 16).filter v.testBit) State.ring
  else if off = 0x1_0008 then s.setReg aDbDone (s.reg aDbDone &&& ~~~(BitVec.ofNat 64 (v % 65536)))
  else if off = 0x1_0010 then s.setFld aDbIgn 0 16 v
  else s

/-- A host write to the GPIO view, which the I/O die serves without the packet network (R210, R262): each register under its
own rules; a register of 8 bytes takes only all of them (R218). -/
def State.hostGpio (s : State) (off size : Nat) (v : W64) : State :=
  let a := 0x15_1002_0000 + off
  if !sizeOk s.part a size then s
  else if size = 8 ∧ twoRegs a = true then ((s.writeReg .host a (v &&& bits 31 0)).1.writeReg .host (a + 4) (v >>> 32)).1
  else (s.writeReg .host a v).1

/-- What 4 bytes of the doorbell block read as (R395): DB_EVT shows the event queue. -/
def State.doorbellRead (s : State) (off : Nat) : Nat :=
  if off = 0x1_0004 then s.fldOf aDbBusy 0 16
  else if off = 0x1_0008 then s.fldOf aDbDone 0 16
  else if off = 0x1_000C then min 1 s.events.queue.length + 2 ^ 16 * s.events.queue.length
  else if off = 0x1_0010 then s.fldOf aDbIgn 0 20
  else 0

/-- What the host reads in BAR0 (R210): mailbox bytes, the doorbell block, the GPIO view with its SECURE pins hidden, the
identity block (R417). -/
def State.bar0Read (s : State) (off size : Nat) : List Byte :=
  let half := fun (o : Nat) => bytesOfNat 4 (s.doorbellRead o)
  if off < 0x1_0000 then s.bytes (aBar0 off) size
  else if off < 0x2_0000 then (half off ++ half (off + 4)).take size
  else if off < 0x2_1000 then
    if sizeOk s.part (0x15_1002_0000 + (off - 0x2_0000)) size then (s.readAt .host (0x15_1002_0000 + (off - 0x2_0000)) size).2.2.1
    else zeros size
  else if 0x3_0000 ≤ off ∧ off + size ≤ 0x3_0040 then sub s.identityBlock (off - 0x3_0000) size
  else zeros size

/-- A host write to BAR0, 4 or 8 bytes and aligned. -/
def State.bar0Write (s : State) (off size : Nat) (v : W64) : State :=
  if (size ≠ 4 ∧ size ≠ 8) ∨ off % size ≠ 0 then s
  else if off < 0x1_0000 then
    let n := off / 0x1000
    if s.bitOf aDbBusy n then s.ignWrite n else s.putMem (aBar0 off) (bytesOfNat size v.toNat)
  else if off < 0x2_0000 then
    if size = 8 then (s.doorbell off (fld v 0 32)).doorbell (off + 4) (fld v 32 32) else s.doorbell off (fld v 0 32)
  else if off < 0x2_1000 then s.hostGpio (off - 0x2_0000) size v
  else s

/- Firmware (R32, R374, R400, R426, R428). -/

/-- Commands held are run in the order in which they were rung. -/
def State.runHeld (s : State) : State :=
  let held := s.mci.cmds.filter fun c => c.task == .held || c.task == .heldPtr
  s.forEach held fun s c =>
    ({ s with mci := { s.mci with cmds := s.mci.cmds.filter fun x => x.chan != c.chan } } : State).beginCmd c

/-- The firmware of the chosen slot begins after a device reset. -/
def State.firmwareStart (s : State) : State :=
  if s.pwr.firmware || s.pwr.started || !s.pwr.wiped || !s.locked then s
  else match s.chosenSlot with
  | none => s
  | some (i, fell) => (s.runFirmware i fell).firmwareBegins.runHeld

/-- Requests of the configuration engine that are out serve no command any more. -/
def State.engineLetsGo (s : State) : State :=
  { s with noc := { s.noc with tags := s.noc.tags.map fun x => match x.use with
      | .engine _ => { x with use := .other }
      | _ => x } }

/-- The management complex restarts: FW_UPDATE with ACTIVATE completes with the version that runs, every other command
under way with INTERNAL, and what was rung meanwhile runs. -/
def State.firmwareRestart (s : State) : State :=
  if s.pwr.firmware || !s.pwr.started then s
  else match s.chosenSlot with
  | none => s
  | some (i, fell) =>
    let s1 := (s.runFirmware i fell).engineLetsGo
    let update := s1.mci.cmds.filter fun c => c.task == .fwRestart
    let s2 := s1.completeAll (fun c => c.task != .fwRestart && c.task != .held && c.task != .heldPtr) cInternal
    let s3 := s2.forEach update fun s c =>
      (s.complete c cOk (bytesOfNat 4 s.sec.fwVersion)).event 0x12 0xFF
        (bytesOfNat 4 s.sec.fwVersion ++ bytesOfNat 4 s.sec.fwSvn ++ [if s.sec.fallback then 1 else 0])
    s3.runHeld

/- Host memory (R334, R398). -/

/-- A read of host memory has its completion: the packet-network requester is answered, or the command's payload has
come. -/
def State.hostCompletion (s : State) (tag : Nat) (data : List Byte) : State :=
  match s.host.reads.find? fun r => r.tag == tag with
  | none => s
  | some r =>
    let s1 : State := { s with host := { s.host with reads := s.host.reads.filter fun x => x.tag != tag } }
    match r.req with
    | some q => s1.answer q stOk (padTo q.len data) false
    | none =>
      if !s.pwr.firmware then s1
      else s1.forEach (s1.mci.cmds.filter fun c => c.chan == r.chan && c.task == .payload) fun s c =>
        let d : MciCmd := { c with desc := { c.desc with payload := padTo (s.num (chanBase c.chan + 8) 4) data }, task := .held }
        ({ s with mci := { s.mci with cmds := s.mci.cmds.filter fun x => x.chan != c.chan } } : State).beginCmd d

/-- HALT or STEP after 1 s: the halt stays requested, stepping goes on (R401). -/
def State.haltTimeout (s : State) (ch : Nat) : State :=
  s.completeAll (fun c => c.chan == ch && (match c.task with
    | .halt _ | .step _ _ _ _ => true
    | _ => false)) cTimeout

/-- A register write without a row of its own (R9), on the internal map or in BAR0. -/
def State.registerWrite (s : State) (o : Origin) (t : RegTarget) (size : Nat) (v : W64) : State :=
  match t with
  | .bar0 off => if o = .host then s.bar0Write off size v else s
  | .internal a =>
    if (match placeOf s.part a with
        | .tileRegs _ _ | .ioRegs | .ownership => true
        | _ => false) then s.directWrite o a (bytesOfNat size v.toNat) else s

end Sys2Proof.Machine
end

