-- ==== Sys2Proof/Machine/ExecMci.lean ====
section
/-! DEFINITION. The mailbox commands of R401, one by one, and the other commands of the command interface. -/

namespace Sys2Proof.Machine

/-- IDENTIFY (R417). -/
def execIdentify (d : Desc) (s : State) : Host.Outcome State Fault Refusal := s.act fun s => s.mciHost 0x01 d

/-- STATUS (R403). -/
def execStatus (d : Desc) (s : State) : Host.Outcome State Fault Refusal := s.act fun s => s.mciHost 0x02 d

/-- EVENT_READ (R404). -/
def execEventRead (d : Desc) (s : State) : Host.Outcome State Fault Refusal := s.act fun s => s.mciHost 0x03 d

/-- IMAGE_BEGIN (R281). -/
def execImageBegin (d : Desc) (s : State) : Host.Outcome State Fault Refusal := s.act fun s => s.mciHost 0x10 d

/-- IMAGE_DATA (R281). -/
def execImageData (d : Desc) (s : State) : Host.Outcome State Fault Refusal := s.act fun s => s.mciHost 0x11 d

/-- IMAGE_END (R285). -/
def execImageEnd (d : Desc) (s : State) : Host.Outcome State Fault Refusal := s.act fun s => s.mciHost 0x12 d

/-- IMAGE_COMMIT (R286, R288). -/
def execImageCommit (d : Desc) (s : State) : Host.Outcome State Fault Refusal := s.act fun s => s.mciHost 0x13 d

/-- IMAGE_FROM_FLASH (R282). -/
def execImageFromFlash (d : Desc) (s : State) : Host.Outcome State Fault Refusal := s.act fun s => s.mciHost 0x14 d

/-- FLASH_WRITE (R412, R413). -/
def execFlashWrite (d : Desc) (s : State) : Host.Outcome State Fault Refusal := s.act fun s => s.mciHost 0x15 d

/-- START (R293, R348). -/
def execStart (d : Desc) (s : State) : Host.Outcome State Fault Refusal := s.act fun s => s.mciHost 0x20 d

/-- STOP (R294). -/
def execStop (d : Desc) (s : State) : Host.Outcome State Fault Refusal := s.act fun s => s.mciHost 0x21 d

/-- RUN (R440). -/
def execRun (d : Desc) (s : State) : Host.Outcome State Fault Refusal := s.act fun s => s.mciHost 0x22 d

/-- HALT (R438). -/
def execHalt (d : Desc) (s : State) : Host.Outcome State Fault Refusal := s.act fun s => s.mciHost 0x23 d

/-- STEP (R439). -/
def execStep (d : Desc) (s : State) : Host.Outcome State Fault Refusal := s.act fun s => s.mciHost 0x24 d

/-- BREAK_SET (R446). -/
def execBreakSet (d : Desc) (s : State) : Host.Outcome State Fault Refusal := s.act fun s => s.mciHost 0x25 d

/-- REGION_FENCE (R296). -/
def execRegionFence (d : Desc) (s : State) : Host.Outcome State Fault Refusal := s.act fun s => s.mciHost 0x30 d

/-- REGION_LOAD (R288, R297). -/
def execRegionLoad (d : Desc) (s : State) : Host.Outcome State Fault Refusal := s.act fun s => s.mciHost 0x31 d

/-- REGION_RESUME (R300, R349). -/
def execRegionResume (d : Desc) (s : State) : Host.Outcome State Fault Refusal := s.act fun s => s.mciHost 0x32 d

/-- REGION_POWER (R377). -/
def execRegionPower (d : Desc) (s : State) : Host.Outcome State Fault Refusal := s.act fun s => s.mciHost 0x33 d

/-- CAPTURE_SET (R461). -/
def execCaptureSet (d : Desc) (s : State) : Host.Outcome State Fault Refusal := s.act fun s => s.mciHost 0x40 d

/-- TRACE_SET (R458). -/
def execTraceSet (d : Desc) (s : State) : Host.Outcome State Fault Refusal := s.act fun s => s.mciHost 0x41 d

/-- STATE_READ (R406). -/
def execStateRead (d : Desc) (s : State) : Host.Outcome State Fault Refusal := s.act fun s => s.mciHost 0x42 d

/-- STATE_WRITE (R406). -/
def execStateWrite (d : Desc) (s : State) : Host.Outcome State Fault Refusal := s.act fun s => s.mciHost 0x43 d

/-- LANE_SET (R330). -/
def execLaneSet (d : Desc) (s : State) : Host.Outcome State Fault Refusal := s.act fun s => s.mciHost 0x50 d

/-- LANE_STATUS (R401). -/
def execLaneStatus (d : Desc) (s : State) : Host.Outcome State Fault Refusal := s.act fun s => s.mciHost 0x51 d

/-- LANE_TEST (R326). -/
def execLaneTest (d : Desc) (s : State) : Host.Outcome State Fault Refusal := s.act fun s => s.mciHost 0x52 d

/-- CASCADE_FORM (R343). -/
def execCascadeForm (d : Desc) (s : State) : Host.Outcome State Fault Refusal := s.act fun s => s.mciHost 0x60 d

/-- KETCH_SET (R353). -/
def execKetchSet (d : Desc) (s : State) : Host.Outcome State Fault Refusal := s.act fun s => s.mciHost 0x61 d

/-- KETCH_RESYNC (R359). -/
def execKetchResync (d : Desc) (s : State) : Host.Outcome State Fault Refusal := s.act fun s => s.mciHost 0x62 d

/-- POWER_CAP (R381). -/
def execPowerCap (d : Desc) (s : State) : Host.Outcome State Fault Refusal := s.act fun s => s.mciHost 0x70 d

/-- REEF_POLICY (R381). -/
def execReefPolicy (d : Desc) (s : State) : Host.Outcome State Fault Refusal := s.act fun s => s.mciHost 0x71 d

/-- CLOCK_SET (R364, R372). -/
def execClockSet (d : Desc) (s : State) : Host.Outcome State Fault Refusal := s.act fun s => s.mciHost 0x72 d

/-- SENSORS_READ (R378). -/
def execSensorsRead (d : Desc) (s : State) : Host.Outcome State Fault Refusal := s.act fun s => s.mciHost 0x73 d

/-- RESOURCE_CLAIM (R408). -/
def execResourceClaim (d : Desc) (s : State) : Host.Outcome State Fault Refusal := s.act fun s => s.mciHost 0x80 d

/-- RESOURCE_RELEASE (R408). -/
def execResourceRelease (d : Desc) (s : State) : Host.Outcome State Fault Refusal := s.act fun s => s.mciHost 0x81 d

/-- GPIO_CONFIG (R410). -/
def execGpioConfig (d : Desc) (s : State) : Host.Outcome State Fault Refusal := s.act fun s => s.mciHost 0x82 d

/-- HEALTH_REPORT (R126). -/
def execHealthReport (d : Desc) (s : State) : Host.Outcome State Fault Refusal := s.act fun s => s.mciHost 0x90 d

/-- REPAIR (R387, R388). -/
def execRepair (d : Desc) (s : State) : Host.Outcome State Fault Refusal := s.act fun s => s.mciHost 0x91 d

/-- ATTEST (R418). -/
def execAttest (d : Desc) (s : State) : Host.Outcome State Fault Refusal := s.act fun s => s.mciHost 0xA0 d

/-- LIFECYCLE_SET (R423). -/
def execLifecycleSet (d : Desc) (s : State) : Host.Outcome State Fault Refusal := s.act fun s => s.mciHost 0xA1 d

/-- FW_UPDATE (R427, R428). -/
def execFwUpdate (d : Desc) (s : State) : Host.Outcome State Fault Refusal := s.act fun s => s.mciHost 0xA2 d

/-- DEBUG_UNLOCK (R424). -/
def execDebugUnlock (d : Desc) (s : State) : Host.Outcome State Fault Refusal := s.act fun s => s.mciHost 0xA3 d

/-- RELAYED_COMMAND (R399). -/
def execRelayedCommand (opcode : Nat) (payload : List Byte) (s : State) : Host.Outcome State Fault Refusal :=
  s.act fun s => s.relayed opcode payload

/-- BUSY_CHANNEL_WRITE (R394). -/
def execBusyChannelWrite (ch : Nat) (s : State) : Host.Outcome State Fault Refusal :=
  s.act fun s => if ch < 16 ∧ s.bitOf aDbBusy ch = true then s.ignWrite ch else s

/-- HALT_TIMEOUT (R401). -/
def execHaltTimeout (ch : Nat) (s : State) : Host.Outcome State Fault Refusal := s.act fun s => s.haltTimeout ch

/-- REGISTER_WRITE (R9). -/
def execRegisterWrite (origin : Origin) (target : RegTarget) (size : Nat) (value : W64) (s : State) :
    Host.Outcome State Fault Refusal :=
  s.act fun s => s.registerWrite origin target size value

/-- FIRMWARE_START (R374, R426). -/
def execFirmwareStart (s : State) : Host.Outcome State Fault Refusal := s.act State.firmwareStart

/-- FIRMWARE_RESTART (R32, R400). -/
def execFirmwareRestart (s : State) : Host.Outcome State Fault Refusal := s.act State.firmwareRestart

/-- LANE_TEST_END (R326). -/
def execLaneTestEnd (lane : Nat) (s : State) : Host.Outcome State Fault Refusal := s.act fun s => s.laneTestEnd lane

/-- HOST_COMPLETION (R334). -/
def execHostCompletion (tag : Nat) (data : List Byte) (s : State) : Host.Outcome State Fault Refusal :=
  s.act fun s => s.hostCompletion tag data

end Sys2Proof.Machine
end

