-- ==== Sys2Proof/Machine/ExecMemory.lean ====
section
/-! DEFINITION. Commands of the stacked DRAM (R184 to R203). A channel number above 63 and a stack above 3 name nothing. -/

namespace Sys2Proof.Machine

/-- An activity of one of the 64 channel controllers. -/
def State.ofChannel (s : State) (g : Nat) (f : State → State) : Host.Outcome State Fault Refusal :=
  s.act fun s => if g < 64 then f s else s

/-- DRAM_REQUEST (R192). -/
def execDramRequest (g : Nat) (s : State) : Host.Outcome State Fault Refusal := s.ofChannel g fun s => s.dramRequest g

/-- DRAM_TRANSACTION (R195). -/
def execDramTransaction (g i : Nat) (s : State) : Host.Outcome State Fault Refusal :=
  s.ofChannel g fun s => s.dramTransaction g i

/-- REFRESH_DUE (R198). -/
def execRefreshDue (g : Nat) (s : State) : Host.Outcome State Fault Refusal := s.ofChannel g fun s => s.refreshDue g

/-- IDLE_REFRESH (R199). -/
def execIdleRefresh (g : Nat) (s : State) : Host.Outcome State Fault Refusal := s.ofChannel g fun s => s.idleRefresh g

/-- FORCED_REFRESH (R199). -/
def execForcedRefresh (g : Nat) (s : State) : Host.Outcome State Fault Refusal := s.ofChannel g fun s => s.forcedRefresh g

/-- REFRESH_END (R198). -/
def execRefreshEnd (g : Nat) (s : State) : Host.Outcome State Fault Refusal := s.ofChannel g fun s => s.refreshEnd g

/-- PATROL_SCRUB (R201). -/
def execPatrolScrub (g : Nat) (s : State) : Host.Outcome State Fault Refusal := s.ofChannel g fun s => s.scrub g

/-- DRAM_ZERO_FILL (R185). -/
def execDramZeroFill (g : Nat) (s : State) : Host.Outcome State Fault Refusal := s.ofChannel g fun s => s.dramZero g

/-- STACK_TEMPERATURE_READ (R184). -/
def execStackTemperatureRead (stack : Nat) (celsius : Int) (s : State) : Host.Outcome State Fault Refusal :=
  s.act fun s => if stack < 4 then s.stackTemp stack celsius else s

end Sys2Proof.Machine
end

