-- ==== Sys2Proof/Machine/ExecPlatform.lean ====
section
/-! DEFINITION. Commands of the host port's link and configuration space, of power and reefing, and of the debug block and
the trace funnel. -/

namespace Sys2Proof.Machine

/- Host port (R333 to R336). -/

/-- The port's configuration space and link reset (R335): requests under way end, MSI-X and bus mastering are off, the
completion timeout is its default; reads of host memory end as R334 provides. -/
def State.hotReset (s : State) : State :=
  let s1 := s.forEach s.host.reads State.readLost
  let s2 : State := { s1 with host := { s1.host with
    bar2 := [], reads := [], msixOn := false, busMaster := false, cplTimeoutUs := 50000 } }
  s2.setFld aHpStat 0 8 0

/-- HOT_RESET (R335). -/
def execHotReset (cause : PortReset) (s : State) : Host.Outcome State Fault Refusal :=
  s.act fun s => match cause with
    | .hotReset | .linkDisable | .linkDown | .flr => s.hotReset

/-- HOST_LINK_UP (R332, R336). -/
def execHostLinkUp (speed width : Nat) (s : State) : Host.Outcome State Fault Refusal :=
  s.act fun s =>
    if 1 ≤ speed ∧ speed ≤ 5 ∧ (width = 1 ∨ width = 4 ∨ width = 8) then s.setFld aHpStat 0 8 (speed + 8 * width + 128) else s

/-- A write of the port's configuration space (R334, R335): vectors held are signalled once MSI-X is enabled. -/
def State.hostConfig (s : State) : HostCfg → State
  | .msixEnable on =>
    let h : HostPort := { s.host with msixOn := on }
    if on then
      { s with host := h, events := { s.events with msix := s.events.msix ++ s.events.msixHeld, msixHeld := [] } }
    else { s with host := h }
  | .busMaster on => { s with host := { s.host with busMaster := on } }
  | .cplTimeoutUs us =>
    if 1000 ≤ us ∧ us ≤ 4000000 then { s with host := { s.host with cplTimeoutUs := us } } else s

/-- HOST_CONFIG_WRITE (R335). -/
def execHostConfigWrite (w : HostCfg) (s : State) : Host.Outcome State Fault Refusal := s.act fun s => s.hostConfig w

/-- A read of host memory has no completion within the timeout (R334). -/
def State.completionTimeout (s : State) (tag : Nat) : State :=
  match s.host.reads.find? fun r => r.tag == tag with
  | some r => s.readLost r
  | none => s

/-- COMPLETION_TIMEOUT (R334). -/
def execCompletionTimeout (tag : Nat) (s : State) : Host.Outcome State Fault Refusal :=
  s.act fun s => s.completionTimeout tag

/- Clocks, power, sensing (R365, R368, R369, R377 to R385). -/

/-- What the firmware does of its own accord: nothing before it runs. -/
def State.byFirmware (s : State) (f : State → State) : Host.Outcome State Fault Refusal :=
  s.act fun s => if s.pwr.firmware then f s else s

/-- REEF_EVALUATION (R381). -/
def execReefEvaluation (s : State) : Host.Outcome State Fault Refusal := s.byFirmware State.reefEvaluate

/-- EMERGENCY_REEF (R382). -/
def execEmergencyReef (s : State) : Host.Outcome State Fault Refusal := s.act State.emergency

/-- POWER_ESTIMATE (R379). -/
def execPowerEstimate (deciWatts : Nat) (s : State) : Host.Outcome State Fault Refusal :=
  s.byFirmware fun s => s.powerEstimate deciWatts

/-- SENSOR_SAMPLE (R378). -/
def execSensorSample (tile temp vmin : Nat) (s : State) : Host.Outcome State Fault Refusal :=
  s.act fun s => s.sensorSample tile temp vmin

/-- DCO_RETRIM (R385). -/
def execDcoRetrim (s : State) : Host.Outcome State Fault Refusal := s.byFirmware State.dcoRetrim

/-- YARD_CLOSE (R368). -/
def execYardClose (yard : Nat) (s : State) : Host.Outcome State Fault Refusal := s.act fun s => s.yardCloseReq yard

/-- YARD_OPEN (R369). -/
def execYardOpen (yard : Nat) (s : State) : Host.Outcome State Fault Refusal := s.act fun s => s.yardOpenReq yard

/-- REEFING_LEVEL_SWITCH (R365). -/
def execReefingLevelSwitch (s : State) : Host.Outcome State Fault Refusal := s.act State.levelSwitch

/-- A compute-domain transition ends (R377): TRANSIT clears, and a REGION_POWER that waits completes. -/
def State.transitionDone (s : State) (m : Nat) : State :=
  if m < 16 ∧ s.bitOf (aTilePwr (homeTile m)) 3 = true then (s.powerDone m).settle else s

/-- POWER_TRANSITION_DONE (R377). -/
def execPowerTransitionDone (m : Nat) (s : State) : Host.Outcome State Fault Refusal :=
  s.act fun s => s.transitionDone m

/- Debug block (R437 to R440). -/

/-- An activity of one emulation region's debug block. -/
def State.ofRegion (s : State) (m : Nat) (f : State → State) : Host.Outcome State Fault Refusal :=
  s.act fun s => if m < 16 then f s else s

/-- HALT_REQ (R438). -/
def execHaltReq (m : Nat) (s : State) : Host.Outcome State Fault Refusal := s.ofRegion m fun s => (s.haltReq m).settle

/-- DBG_HALT_RUN (R440). -/
def execDbgHaltRun (m : Nat) (s : State) : Host.Outcome State Fault Refusal := s.ofRegion m fun s => s.dbgRun m

/-- STEP_GO (R439). -/
def execStepGo (m : Nat) (s : State) : Host.Outcome State Fault Refusal := s.ofRegion m fun s => (s.stepGo m).settle

/- Telltale trace (R452, R453, R455). -/

/-- TS (R452): time passes to the end of the next interval of an enabled source (log 3). -/
def execTs (s : State) : Host.Outcome State Fault Refusal := s.act fun s => (s.passTo s.tsNext).ttTs

/-- OVERFLOW (R453). -/
def execOverflow (t source : Nat) (s : State) : Host.Outcome State Fault Refusal :=
  s.act fun s => if t < 64 ∧ source < 2 then s.ttOverflow t source else s

/-- TRACE_PACKET_SINK (R455). A TRACE_SET that waits for the funnel to drain goes on with the last packet. -/
def execTracePacketSink (s : State) : Host.Outcome State Fault Refusal :=
  s.act fun s => s.ttSink.settle

end Sys2Proof.Machine
end

