-- ==== Sys2Proof/Machine/ExecSchedule.lean ====
section
/-! DEFINITION. Commands of the clusters, memory-model units, bridges, rigging switches, stream arrays and scratchpads. -/

namespace Sys2Proof.Machine

/- Clusters, memory models and bridges. -/

/-- CLUSTER_STEP (R75); a step that lets a region halt completes the HALT or STEP that waits for it. -/
def execClusterStep (t c : Nat) (s : State) : Host.Outcome State Fault Refusal :=
  s.act fun s => (s.clusterStep t c).settle

/-- HOLD_TIMEOUT (R64). -/
def execHoldTimeout (t c : Nat) (s : State) : Host.Outcome State Fault Refusal := s.act fun s => s.holdTimeout t c

/-- REEFING_HOLD_STEP (R380). -/
def execReefingHoldStep (s : State) : Host.Outcome State Fault Refusal := s.act State.reefHold

/-- MM_UNIT_PRESENT (R173). -/
def execMmUnitPresent (t c : Nat) (s : State) : Host.Outcome State Fault Refusal := s.act fun s => s.unitPresent t c

/-- MMR_RETURN (R53). -/
def execMmrReturn (t c : Nat) (s : State) : Host.Outcome State Fault Refusal := s.act fun s => s.unitReturn t c

/-- BRIDGE_INPUT_WORD (R49). -/
def execBridgeInputWord (m : Nat) (s : State) : Host.Outcome State Fault Refusal := s.act fun s => s.brgArrive m

/-- BR_TICK (R257). -/
def execBrTick (m : Nat) (s : State) : Host.Outcome State Fault Refusal := s.act fun s => s.brTick m

/-- BRIDGE_OUTPUT_WORD (R85): the pads bound to the bridge follow BR_OUT. -/
def execBridgeOutputWord (m : Nat) (s : State) : Host.Outcome State Fault Refusal :=
  s.act fun s => (s.brOutWord m).driveBridge m

/-- OUTPUT_RELEASE (R85). -/
def execOutputRelease (m : Nat) (s : State) : Host.Outcome State Fault Refusal :=
  s.act fun s => (s.outRelease m).driveBridge m

/- Rigging network. -/

/-- HALF_SWAP (R108). -/
def execHalfSwap (m : Nat) (s : State) : Host.Outcome State Fault Refusal := s.act fun s => s.halfSwap m

/-- The next bundle on the link into input `port` of tile `t` arrives (R89); bundles from X come with their frame. -/
def State.bundleArrives (s : State) (t port : Nat) : State :=
  if 4 ≤ port then s
  else
    let u := neighbour t port
    let w := s.sw u
    match takeFirst (fun f => f.out == farInput port) w.flying with
    | some (f, rest) => (s.setSw u { w with flying := rest }).arrive t port (bufKey port f.b.vc) f.b
    | none => s

/-- BUNDLE_ARRIVAL (R89). -/
def execBundleArrival (t port : Nat) (s : State) : Host.Outcome State Fault Refusal := s.act fun s => (s.bundleArrives t port).settle

/-- BUNDLE_GRANT (R96). -/
def execBundleGrant (t out : Nat) (s : State) : Host.Outcome State Fault Refusal := s.act fun s => (s.grantOutput t out).settle

/-- LATCH_DELIVERY (R97). -/
def execLatchDelivery (t c latch : Nat) (s : State) : Host.Outcome State Fault Refusal :=
  s.act fun s => (s.latchIn t (s.phys t c) latch).settle

/-- A credit on its way back reaches an output (R100). -/
def State.creditReturn (s : State) (t out vc : Nat) : State :=
  let w := s.sw t
  let k := 2 * out + vc
  let b := mapGet (fun _ => 0) w.back k
  if b = 0 then s
  else s.setSw t { w with back := mapSet (fun _ => 0) w.back k (b - 1),
                          used := mapSet (fun _ => 0) w.used k (mapGet (fun _ => 0) w.used k - 1) }

/-- CREDIT_RETURN (R100). -/
def execCreditReturn (t out vc : Nat) (s : State) : Host.Outcome State Fault Refusal := s.act fun s => s.creditReturn t out vc

/-- SHROUD_EMISSION (R109). -/
def execShroudEmission (t out half slot : Nat) (s : State) : Host.Outcome State Fault Refusal :=
  s.act fun s => s.shroudOffer t out half slot

/- Stream arrays. -/

/-- SWITCH_STEP (R150). -/
def execSwitchStep (t thread : Nat) (s : State) : Host.Outcome State Fault Refusal :=
  s.act fun s => (s.arraySwitch t thread).settle

/-- RUN_STEP (R137). -/
def execRunStep (t thread : Nat) (s : State) : Host.Outcome State Fault Refusal :=
  s.act fun s => (s.arrayRun t thread).settle

/-- STREAM_PORT_FETCH (R160). -/
def execStreamPortFetch (t n : Nat) (s : State) : Host.Outcome State Fault Refusal := s.act fun s => s.arrayFetch t n

/-- STREAM_PORT_STORE (R160). -/
def execStreamPortStore (t n : Nat) (s : State) : Host.Outcome State Fault Refusal := s.act fun s => s.arrayStore t n

/-- ARRAY_HOLD_TIMEOUT (R166). -/
def execArrayHoldTimeout (t thread : Nat) (s : State) : Host.Outcome State Fault Refusal :=
  s.act fun s => s.arrHoldTimeout t thread

/- Scratchpads. -/

/-- BANK_GRANT (R175). -/
def execBankGrant (t b : Nat) (s : State) : Host.Outcome State Fault Refusal := s.act fun s => s.serveBank t b

/-- CORRECTED_WRITE_BACK (R182). -/
def execCorrectedWriteBack (t b : Nat) (s : State) : Host.Outcome State Fault Refusal := s.act fun s => s.writeBack t b

/-- BANK_WAKE (R180). -/
def execBankWake (t b : Nat) (s : State) : Host.Outcome State Fault Refusal := s.act fun s => s.bankWake t b

/-- BANK_ZERO_FILL (R180). -/
def execBankZeroFill (t b : Nat) (s : State) : Host.Outcome State Fault Refusal := s.act fun s => s.bankZero t b

end Sys2Proof.Machine
end

