-- ==== Sys2Proof/Machine/Dispatch.lean ====
section
/-! DEFINITION. The dispatch: one arm for each command, in the order of spec/opcode_table.json. -/

namespace Sys2Proof.Machine

def exec (i : Instr) (s : State) : Host.Outcome State Fault Refusal :=
  match i with
  | .identify d => Sys2Proof.Machine.execIdentify d s
  | .status d => Sys2Proof.Machine.execStatus d s
  | .eventRead d => Sys2Proof.Machine.execEventRead d s
  | .imageBegin d => Sys2Proof.Machine.execImageBegin d s
  | .imageData d => Sys2Proof.Machine.execImageData d s
  | .imageEnd d => Sys2Proof.Machine.execImageEnd d s
  | .imageCommit d => Sys2Proof.Machine.execImageCommit d s
  | .imageFromFlash d => Sys2Proof.Machine.execImageFromFlash d s
  | .flashWrite d => Sys2Proof.Machine.execFlashWrite d s
  | .start d => Sys2Proof.Machine.execStart d s
  | .stop d => Sys2Proof.Machine.execStop d s
  | .run d => Sys2Proof.Machine.execRun d s
  | .halt d => Sys2Proof.Machine.execHalt d s
  | .step d => Sys2Proof.Machine.execStep d s
  | .breakSet d => Sys2Proof.Machine.execBreakSet d s
  | .regionFence d => Sys2Proof.Machine.execRegionFence d s
  | .regionLoad d => Sys2Proof.Machine.execRegionLoad d s
  | .regionResume d => Sys2Proof.Machine.execRegionResume d s
  | .regionPower d => Sys2Proof.Machine.execRegionPower d s
  | .captureSet d => Sys2Proof.Machine.execCaptureSet d s
  | .traceSet d => Sys2Proof.Machine.execTraceSet d s
  | .stateRead d => Sys2Proof.Machine.execStateRead d s
  | .stateWrite d => Sys2Proof.Machine.execStateWrite d s
  | .laneSet d => Sys2Proof.Machine.execLaneSet d s
  | .laneStatus d => Sys2Proof.Machine.execLaneStatus d s
  | .laneTest d => Sys2Proof.Machine.execLaneTest d s
  | .cascadeForm d => Sys2Proof.Machine.execCascadeForm d s
  | .ketchSet d => Sys2Proof.Machine.execKetchSet d s
  | .ketchResync d => Sys2Proof.Machine.execKetchResync d s
  | .powerCap d => Sys2Proof.Machine.execPowerCap d s
  | .reefPolicy d => Sys2Proof.Machine.execReefPolicy d s
  | .clockSet d => Sys2Proof.Machine.execClockSet d s
  | .sensorsRead d => Sys2Proof.Machine.execSensorsRead d s
  | .resourceClaim d => Sys2Proof.Machine.execResourceClaim d s
  | .resourceRelease d => Sys2Proof.Machine.execResourceRelease d s
  | .gpioConfig d => Sys2Proof.Machine.execGpioConfig d s
  | .healthReport d => Sys2Proof.Machine.execHealthReport d s
  | .repair d => Sys2Proof.Machine.execRepair d s
  | .attest d => Sys2Proof.Machine.execAttest d s
  | .lifecycleSet d => Sys2Proof.Machine.execLifecycleSet d s
  | .fwUpdate d => Sys2Proof.Machine.execFwUpdate d s
  | .debugUnlock d => Sys2Proof.Machine.execDebugUnlock d s
  | .relayedCommand opcode payload => Sys2Proof.Machine.execRelayedCommand opcode payload s
  | .busyChannelWrite ch => Sys2Proof.Machine.execBusyChannelWrite ch s
  | .haltTimeout ch => Sys2Proof.Machine.execHaltTimeout ch s
  | .registerWrite origin target size value => Sys2Proof.Machine.execRegisterWrite origin target size value s
  | .rd q => Sys2Proof.Machine.execRd q s
  | .wr q => Sys2Proof.Machine.execWr q s
  | .wrb q => Sys2Proof.Machine.execWrb q s
  | .grant p => Sys2Proof.Machine.execGrant p s
  | .wdata p => Sys2Proof.Machine.execWdata p s
  | .cpl p => Sys2Proof.Machine.execCpl p s
  | .rdata p => Sys2Proof.Machine.execRdata p s
  | .inv p => Sys2Proof.Machine.execInv p s
  | .invAck p => Sys2Proof.Machine.execInvAck p s
  | .flitGrant node net out => Sys2Proof.Machine.execFlitGrant node net out s
  | .urgencyRise node net input vc => Sys2Proof.Machine.execUrgencyRise node net input vc s
  | .clusterStep t c => Sys2Proof.Machine.execClusterStep t c s
  | .holdTimeout t c => Sys2Proof.Machine.execHoldTimeout t c s
  | .reefingHoldStep => Sys2Proof.Machine.execReefingHoldStep s
  | .mmUnitPresent t c => Sys2Proof.Machine.execMmUnitPresent t c s
  | .mmrReturn t c => Sys2Proof.Machine.execMmrReturn t c s
  | .bridgeInputWord m => Sys2Proof.Machine.execBridgeInputWord m s
  | .brTick m => Sys2Proof.Machine.execBrTick m s
  | .bridgeOutputWord m => Sys2Proof.Machine.execBridgeOutputWord m s
  | .outputRelease m => Sys2Proof.Machine.execOutputRelease m s
  | .halfSwap m => Sys2Proof.Machine.execHalfSwap m s
  | .bundleArrival t port => Sys2Proof.Machine.execBundleArrival t port s
  | .bundleGrant t out => Sys2Proof.Machine.execBundleGrant t out s
  | .latchDelivery t c latch => Sys2Proof.Machine.execLatchDelivery t c latch s
  | .creditReturn t out vc => Sys2Proof.Machine.execCreditReturn t out vc s
  | .shroudEmission t out half slot => Sys2Proof.Machine.execShroudEmission t out half slot s
  | .riggingDrainComplete m => Sys2Proof.Machine.execRiggingDrainComplete m s
  | .slotTableWrite origin addr value => Sys2Proof.Machine.execSlotTableWrite origin addr value s
  | .switchStep t thread => Sys2Proof.Machine.execSwitchStep t thread s
  | .runStep t thread => Sys2Proof.Machine.execRunStep t thread s
  | .streamPortFetch t n => Sys2Proof.Machine.execStreamPortFetch t n s
  | .streamPortStore t n => Sys2Proof.Machine.execStreamPortStore t n s
  | .arrayHoldTimeout t thread => Sys2Proof.Machine.execArrayHoldTimeout t thread s
  | .bankGrant t b => Sys2Proof.Machine.execBankGrant t b s
  | .correctedWriteBack t b => Sys2Proof.Machine.execCorrectedWriteBack t b s
  | .spPwrWrite origin t value => Sys2Proof.Machine.execSpPwrWrite origin t value s
  | .bankWake t b => Sys2Proof.Machine.execBankWake t b s
  | .bankZeroFill t b => Sys2Proof.Machine.execBankZeroFill t b s
  | .dramRequest g => Sys2Proof.Machine.execDramRequest g s
  | .dramTransaction g idx => Sys2Proof.Machine.execDramTransaction g idx s
  | .refreshDue g => Sys2Proof.Machine.execRefreshDue g s
  | .idleRefresh g => Sys2Proof.Machine.execIdleRefresh g s
  | .forcedRefresh g => Sys2Proof.Machine.execForcedRefresh g s
  | .refreshEnd g => Sys2Proof.Machine.execRefreshEnd g s
  | .patrolScrub g => Sys2Proof.Machine.execPatrolScrub g s
  | .dramZeroFill g => Sys2Proof.Machine.execDramZeroFill g s
  | .stackTemperatureRead stack celsius => Sys2Proof.Machine.execStackTemperatureRead stack celsius s
  | .packetDrainComplete m => Sys2Proof.Machine.execPacketDrainComplete m s
  | .fenceTimeout ch => Sys2Proof.Machine.execFenceTimeout ch s
  | .flashBoot => Sys2Proof.Machine.execFlashBoot s
  | .leadTicks => Sys2Proof.Machine.execLeadTicks s
  | .startEdge => Sys2Proof.Machine.execStartEdge s
  | .resumeEdge => Sys2Proof.Machine.execResumeEdge s
  | .frameWrite origin addr value => Sys2Proof.Machine.execFrameWrite origin addr value s
  | .gclkSelWrite origin n value => Sys2Proof.Machine.execGclkSelWrite origin n value s
  | .switchForced n => Sys2Proof.Machine.execSwitchForced n s
  | .dcoCfgWrite origin k value => Sys2Proof.Machine.execDcoCfgWrite origin k value s
  | .dcoWindow k errPpm => Sys2Proof.Machine.execDcoWindow k errPpm s
  | .bar4Request write off size value => Sys2Proof.Machine.execBar4Request write off size value s
  | .bar4Timeout n => Sys2Proof.Machine.execBar4Timeout n s
  | .flashReadPort off => Sys2Proof.Machine.execFlashReadPort off s
  | .outMlo origin secure bank value => Sys2Proof.Machine.execOutMlo origin secure bank value s
  | .outMhi origin secure bank value => Sys2Proof.Machine.execOutMhi origin secure bank value s
  | .oeMlo origin secure bank value => Sys2Proof.Machine.execOeMlo origin secure bank value s
  | .oeMhi origin secure bank value => Sys2Proof.Machine.execOeMhi origin secure bank value s
  | .pinInput pin level => Sys2Proof.Machine.execPinInput pin level s
  | .glitchFilterExpiry pin => Sys2Proof.Machine.execGlitchFilterExpiry pin s
  | .bankSupplyChange bank vdet => Sys2Proof.Machine.execBankSupplyChange bank vdet s
  | .rawBlockReceive lane sync payload => Sys2Proof.Machine.execRawBlockReceive lane sync payload s
  | .detectPoll lane found => Sys2Proof.Machine.execDetectPoll lane found s
  | .trainComplete lane => Sys2Proof.Machine.execTrainComplete lane s
  | .lockComplete lane skew => Sys2Proof.Machine.execLockComplete lane skew s
  | .stageTimeout lane passed => Sys2Proof.Machine.execStageTimeout lane passed s
  | .cap lane block => Sys2Proof.Machine.execCap lane block s
  | .alignBlock lane block => Sys2Proof.Machine.execAlignBlock lane block s
  | .skip lane inserted deleted => Sys2Proof.Machine.execSkip lane inserted deleted s
  | .idle lane block => Sys2Proof.Machine.execIdle lane block s
  | .aelbelFrame lane frame => Sys2Proof.Machine.execAelbelFrame lane frame s
  | .replayTimeout lane => Sys2Proof.Machine.execReplayTimeout lane s
  | .frameTransmit lane => Sys2Proof.Machine.execFrameTransmit lane s
  | .crcErrorWindow lane => Sys2Proof.Machine.execCrcErrorWindow lane s
  | .retrain lane => Sys2Proof.Machine.execRetrain lane s
  | .lockLoss lane longerThan1us => Sys2Proof.Machine.execLockLoss lane longerThan1us s
  | .retrainComplete lane ok => Sys2Proof.Machine.execRetrainComplete lane ok s
  | .eidle lane => Sys2Proof.Machine.execEidle lane s
  | .eidleExit lane => Sys2Proof.Machine.execEidleExit lane s
  | .sleep lane => Sys2Proof.Machine.execSleep lane s
  | .sleepWake lane => Sys2Proof.Machine.execSleepWake lane s
  | .adaptationFreeze lane transitions => Sys2Proof.Machine.execAdaptationFreeze lane transitions s
  | .bar2Request write off len tag data => Sys2Proof.Machine.execBar2Request write off len tag data s
  | .hotReset cause => Sys2Proof.Machine.execHotReset cause s
  | .completionTimeout tag => Sys2Proof.Machine.execCompletionTimeout tag s
  | .csyncAlign frame => Sys2Proof.Machine.execCsyncAlign frame s
  | .csyncStart frame => Sys2Proof.Machine.execCsyncStart frame s
  | .csyncJoinPrep frame => Sys2Proof.Machine.execCsyncJoinPrep frame s
  | .csyncRelease frame => Sys2Proof.Machine.execCsyncRelease frame s
  | .csyncStop frame => Sys2Proof.Machine.execCsyncStop frame s
  | .csyncFreeze frame => Sys2Proof.Machine.execCsyncFreeze frame s
  | .csyncAck pos seq status => Sys2Proof.Machine.execCsyncAck pos seq status s
  | .csyncCommit seq join => Sys2Proof.Machine.execCsyncCommit seq join s
  | .csyncAction => Sys2Proof.Machine.execCsyncAction s
  | .positionLost pos => Sys2Proof.Machine.execPositionLost pos s
  | .cascadeFaultMessage record => Sys2Proof.Machine.execCascadeFaultMessage record s
  | .halyardEntry offset data => Sys2Proof.Machine.execHalyardEntry offset data s
  | .compareRecordSend m => Sys2Proof.Machine.execCompareRecordSend m s
  | .compareRecord record => Sys2Proof.Machine.execCompareRecord record s
  | .faultNotice record => Sys2Proof.Machine.execFaultNotice record s
  | .ketchTimeout => Sys2Proof.Machine.execKetchTimeout s
  | .porstN cascId masterN => Sys2Proof.Machine.execPorstN cascId masterN s
  | .perstN => Sys2Proof.Machine.execPerstN s
  | .railGood rail => Sys2Proof.Machine.execRailGood rail s
  | .railLoss rail => Sys2Proof.Machine.execRailLoss rail s
  | .hrefclkLoss => Sys2Proof.Machine.execHrefclkLoss s
  | .resetRelease => Sys2Proof.Machine.execResetRelease s
  | .mastLock => Sys2Proof.Machine.execMastLock s
  | .mastLockLoss => Sys2Proof.Machine.execMastLockLoss s
  | .secureSramWipe => Sys2Proof.Machine.execSecureSramWipe s
  | .tamperTrip source => Sys2Proof.Machine.execTamperTrip source s
  | .lockstepMismatch => Sys2Proof.Machine.execLockstepMismatch s
  | .firmwareRestart => Sys2Proof.Machine.execFirmwareRestart s
  | .faultContainment => Sys2Proof.Machine.execFaultContainment s
  | .defectSample => Sys2Proof.Machine.execDefectSample s
  | .reefEvaluation => Sys2Proof.Machine.execReefEvaluation s
  | .emergencyReef => Sys2Proof.Machine.execEmergencyReef s
  | .powerEstimate deciWatts => Sys2Proof.Machine.execPowerEstimate deciWatts s
  | .sensorSample tile temp vmin => Sys2Proof.Machine.execSensorSample tile temp vmin s
  | .agingMeasure tile shiftPpm => Sys2Proof.Machine.execAgingMeasure tile shiftPpm s
  | .dcoRetrim => Sys2Proof.Machine.execDcoRetrim s
  | .bistPass unit => Sys2Proof.Machine.execBistPass unit s
  | .yardClose yard => Sys2Proof.Machine.execYardClose yard s
  | .yardOpen yard => Sys2Proof.Machine.execYardOpen yard s
  | .tapReset => Sys2Proof.Machine.execTapReset s
  | .idcode => Sys2Proof.Machine.execIdcode s
  | .samplePreload preload => Sys2Proof.Machine.execSamplePreload preload s
  | .extest => Sys2Proof.Machine.execExtest s
  | .extestPulse => Sys2Proof.Machine.execExtestPulse s
  | .extestTrain => Sys2Proof.Machine.execExtestTrain s
  | .clamp => Sys2Proof.Machine.execClamp s
  | .highz => Sys2Proof.Machine.execHighz s
  | .dbgAccess cmd size addr data => Sys2Proof.Machine.execDbgAccess cmd size addr data s
  | .dbgStatus => Sys2Proof.Machine.execDbgStatus s
  | .bypass => Sys2Proof.Machine.execBypass s
  | .haltReq m => Sys2Proof.Machine.execHaltReq m s
  | .dbgHaltRun m => Sys2Proof.Machine.execDbgHaltRun m s
  | .stepGo m => Sys2Proof.Machine.execStepGo m s
  | .unlockExpiry => Sys2Proof.Machine.execUnlockExpiry s
  | .ts => Sys2Proof.Machine.execTs s
  | .overflow t source => Sys2Proof.Machine.execOverflow t source s
  | .tracePacketSink => Sys2Proof.Machine.execTracePacketSink s
  | .reefingLevelSwitch => Sys2Proof.Machine.execReefingLevelSwitch s
  | .powerTransitionDone m => Sys2Proof.Machine.execPowerTransitionDone m s
  | .laneTestEnd lane => Sys2Proof.Machine.execLaneTestEnd lane s
  | .cascadeFormTimeout => Sys2Proof.Machine.execCascadeFormTimeout s
  | .csyncAckDeadline => Sys2Proof.Machine.execCsyncAckDeadline s
  | .flashLoadComplete => Sys2Proof.Machine.execFlashLoadComplete s
  | .firmwareStart => Sys2Proof.Machine.execFirmwareStart s
  | .hrefclkPresent => Sys2Proof.Machine.execHrefclkPresent s
  | .hostLinkUp speed width => Sys2Proof.Machine.execHostLinkUp speed width s
  | .hostConfigWrite w => Sys2Proof.Machine.execHostConfigWrite w s
  | .hostCompletion tag data => Sys2Proof.Machine.execHostCompletion tag data s
  | .pcsBlockLock lane locked => Sys2Proof.Machine.execPcsBlockLock lane locked s
  | .ketchRoleMessage role => Sys2Proof.Machine.execKetchRoleMessage role s
  | .joinCountReport pos count => Sys2Proof.Machine.execJoinCountReport pos count s
  | .halyardStatusReport pos status => Sys2Proof.Machine.execHalyardStatusReport pos status s
  | .discoveryMessage m => Sys2Proof.Machine.execDiscoveryMessage m s

end Sys2Proof.Machine
end

