-- ==== Sys2Proof/Safety.lean ====
section
/-! DEFINITION. What counts as a safe run, in the terms the statements use: when the part runs, when the firmware takes a
command of the host, and what every step keeps. -/

namespace Sys2Proof.Machine

/-- The part runs: it is out of device reset, and its dividers are within the ratio limits (R364, R374). -/
def State.up (s : State) : Prop := s.clk.undef = false ∧ s.pwr.inReset = false

/-- Commands that come from outside and act in every state of the part: reset causes, supplies, the reference clock, pad
levels and bank supplies, and the TAP, which has no part in device reset (R375, R431). -/
def anyStateOf : Instr → Bool
  | .pinInput _ _ | .bankSupplyChange _ _ | .porstN _ _ | .perstN | .railGood _ | .railLoss _ | .hrefclkLoss | .hrefclkPresent
  | .resetRelease | .mastLockLoss | .tamperTrip _ | .tapReset | .idcode | .samplePreload _ | .extest | .extestPulse
  | .extestTrain | .clamp | .highz | .dbgStatus | .bypass => true
  | _ => false

/-- A command of the host as it enters its channel (R392). -/
def entering (op : Nat) (d : Desc) : MciCmd := { chan := d.chan, opcode := op, desc := d, task := .held }

/-- The state once the host has written a command's descriptor and payload and rung its doorbell: the channel is BUSY and
the command stands in it (R391 to R393). -/
def State.rung (s : State) (op : Nat) (d : Desc) : State :=
  ((s.mailed op d).setBit aDbBusy d.chan true).addCmd (entering op d)

/-- The firmware takes a command of the host and comes to the command's own rule: the part runs, the firmware runs, the
channel exists and is idle, the command is neither refused before its own rule (R402) nor relayed (R399). -/
def State.takes (s : State) (op : Nat) (d : Desc) : Prop :=
  s.up ∧ s.pwr.firmware = true ∧ d.chan < 16 ∧ s.bitOf aDbBusy d.chan = false ∧
  (s.rung op d).refusal (entering op d) = none ∧ (s.rung op d).relays (entering op d) = false

/-- A command of the host completes in state `s` with OK and a result (R393). -/
def State.finish (s : State) (op : Nat) (d : Desc) (result : List Byte) : State := s.complete (entering op d) cOk result

/-- A command of the host goes on waiting (R393); whatever already stands completes at once. -/
def State.await (s : State) (op : Nat) (d : Desc) (t : Task) : State := (s.retask (entering op d) t).settle

/-- What every step keeps: the internal map's memory and the register map in canonical form, so that equal contents are
equal data. -/
def State.Canonical (s : State) : Prop := mapWf (memDefault s.part) s.mem = true ∧ mapWf regReset s.regs = true

end Sys2Proof.Machine
end

