-- ==== Sys2Proof/Certificates/Slice0/Obligations.lean ====
section
/-! DEFINITION. The statements about the model: each formalises rules of the spec, named in OBLIGATIONS.json. -/

open Sys2Proof Sys2Proof.Machine

/- Command interface. In each, `s.rung op d` is the state with the command in its channel. -/

/-- Queries: each completes with OK and the result of its rule. -/
def Obligations.QueriesAnswer : Prop :=
  ∀ (s : State) (d : Desc),
    (s.takes 0x01 d → fits d.payload 0 = true →
      exec (.identify d) s = .next ((s.rung 0x01 d).finish 0x01 d (s.identityBlock ++ sha3 s.part.idKey))) ∧
    (s.takes 0x02 d → fits d.payload 0 = true →
      exec (.status d) s = .next ((s.rung 0x02 d).finish 0x02 d
        (bytesOfNat 1 s.devState ++ bytesOfNat 1 s.level ++ bytesOfNat 1 s.sec.lifecycle ++ [0] ++
         bytesOfNat 4 s.events.queue.length ++ bytesOfNat 4 (s.fldOf aCfgCommit 0 32) ++ zeros 4 ++ padTo 16 s.engine.fullBuild ++
         (List.range 24).flatMap fun m => bytesOfNat 8 (s.reg (aCfgRgn m)).toNat))) ∧
    (s.takes 0x51 d → fits d.payload 2 = true → 1 ≤ leNum d.payload 1 1 → leNum d.payload 1 1 ≤ 125 →
      leNum d.payload 0 1 + leNum d.payload 1 1 ≤ 144 →
      exec (.laneStatus d) s = .next ((s.rung 0x51 d).finish 0x51 d
        ((List.range (leNum d.payload 1 1)).flatMap fun i => [aLnStat, aLnPartner, aLnCnt, aLnMon].flatMap fun f =>
          bytesOfNat 8 (s.reg (f (leNum d.payload 0 1 + i))).toNat))) ∧
    (s.takes 0x73 d → fits d.payload 0 = true →
      exec (.sensorsRead d) s = .next ((s.rung 0x73 d).finish 0x73 d
        (((List.range 64).flatMap fun t => bytesOfNat 2 (s.fldOf (aTileSens t) 0 12) ++ bytesOfNat 2 (s.fldOf (aTileSens t) 24 12) ++
            bytesOfNat 2 (s.fldOf (aTileAge t) 0 16) ++ zeros 2) ++
          bytesOfNat 2 s.pwr.ioTemp0 ++ bytesOfNat 2 s.pwr.ioTemp1 ++
          ((List.range 4).flatMap fun k => bytesOfNat 2 (tempCode (mapGet (fun _ => 0) s.stackTemps k))) ++
          bytesOfNat 8 (s.reg aPwrEst).toNat ++ bytesOfNat 1 s.level))) ∧
    (s.takes 0x90 d → fits d.payload 0 = true →
      exec (.healthReport d) s = .next ((s.rung 0x90 d).finish 0x90 d
        ((s.rung 0x90 d).capacityMap ++ bytesOfNat 2 s.health.withdrawn.length ++ s.health.withdrawn.flatMap (bytesOfNat 2)))) ∧
    (s.takes 0xA0 d → fits d.payload 36 = true →
      (leNum d.payload 32 4 = 0 → exec (.attest d) s = .next ((s.rung 0xA0 d).draw.finish 0xA0 d
        ((s.rung 0xA0 d).report (sub d.payload 0 32) ++
          padTo 2420 (Config.identitySignature s.free ((s.rung 0xA0 d).report (sub d.payload 0 32)))))) ∧
      (leNum d.payload 32 4 = 1 → exec (.attest d) s = .next ((s.rung 0xA0 d).finish 0xA0 d s.certificate)))

/-- EVENT_READ: the oldest records leave the queue; EVENTS_LOST is queued when a place frees after records were discarded;
vector 16 is signalled while the queue is not empty. -/
def Obligations.EventReadTakesOldest : Prop :=
  ∀ (s : State) (d : Desc), s.takes 0x03 d → fits d.payload 2 = true → 1 ≤ leNum d.payload 0 2 → leNum d.payload 0 2 ≤ 84 →
    let n := leNum d.payload 0 2
    let r := s.rung 0x03 d
    let left : State := { r with events := { r.events with queue := s.events.queue.drop n } }
    let after := if 0 < s.events.lost ∧ (s.events.queue.drop n).length < 960 ∧ s.events.queue ≠ [] then
        ({ left with events := { left.events with lost := 0 } } : State).event 0x13 0xFF (bytesOfNat 4 (s.events.lost % 2 ^ 32))
      else left
    let t := after.finish 0x03 d ((s.events.queue.take n).flatMap eventBytes)
    exec (.eventRead d) s = .next (if t.events.queue = [] then t else t.msix 16)

/-- Power, clock and pair settings: the registers take the payload's values. -/
def Obligations.SettingsTakeEffect : Prop :=
  ∀ (s : State) (d : Desc),
    (s.takes 0x70 d → fits d.payload 2 = true → 150 ≤ leNum d.payload 0 2 → leNum d.payload 0 2 ≤ 700 →
      exec (.powerCap d) s = .next (((s.rung 0x70 d).setFld aReefCfg 16 10 (leNum d.payload 0 2)).finish 0x70 d [])) ∧
    (s.takes 0x71 d → fits d.payload 4 = true → 70 ≤ leNum d.payload 0 1 → leNum d.payload 0 1 ≤ 100 →
      2 ≤ leNum d.payload 1 1 → leNum d.payload 1 1 ≤ 15 → leNum d.payload 2 1 ≤ 4 → leNum d.payload 3 1 ≤ 1 →
      ∃ t, exec (.reefPolicy d) s = .next (State.finish t 0x71 d []) ∧ t.pending = s.pending ∧
        t = (s.rung 0x71 d).setReg aReefCfg (t.reg aReefCfg) ∧
        t.fldOf aReefCfg 0 8 = leNum d.payload 0 1 ∧ t.fldOf aReefCfg 8 4 = leNum d.payload 1 1 ∧
        t.fldOf aReefCfg 12 1 = leNum d.payload 3 1 ∧ t.fldOf aReefCfg 13 3 = leNum d.payload 2 1 ∧
        t.fldOf aReefCfg 16 10 = s.fldOf aReefCfg 16 10) ∧
    (s.takes 0x72 d → fits d.payload 6 = true → leNum d.payload 0 1 ≤ 1 → leNum d.payload 1 1 ≤ 2 →
      (leNum d.payload 1 1 = 0 ∨ (s.bitOf aMastStat 4 = false ∧ s.bitOf aCascStat 5 = false)) →
      (List.range 4).all (fun i => leNum d.payload (2 + i) 1 == 0) = true →
      exec (.clockSet d) s = .next (((s.rung 0x72 d).setFld aMastStat 2 2 (leNum d.payload 1 1)).finish 0x72 d [])) ∧
    (s.takes 0x72 d → fits d.payload 6 = true → leNum d.payload 0 1 ≤ 1 → leNum d.payload 1 1 ≤ 2 → s.devState ≠ 2 →
      (leNum d.payload 1 1 = 0 ∨ (s.bitOf aMastStat 4 = false ∧ s.bitOf aCascStat 5 = false)) →
      (List.range 4).any (fun i => leNum d.payload (2 + i) 1 != 0) = true →
      (leNum d.payload 2 1 = 0 ∨ (if s.part.speed15 then 8 else 10) ≤ leNum d.payload 2 1) →
      let row := (List.range 4).map fun i => divOr (leNum d.payload (2 + i) 1) (s.clk.row.getD i 0)
      ratiosOk row = true →
      exec (.clockSet d) s = .next ((((s.rung 0x72 d).setFld aMastStat 2 2 (leNum d.payload 1 1)).setRow row).finish 0x72 d [])) ∧
    (s.takes 0x61 d → fits d.payload 5 = true → leNum d.payload 0 1 = s.member → s.member ≠ 0 → leNum d.payload 1 1 ≤ 16 →
      leNum d.payload 2 1 ≠ 0 → leNum d.payload 3 1 < 144 → leNum d.payload 4 1 < 144 → s.role ≠ 0 →
      exec (.ketchSet d) s = .next (((s.rung 0x61 d).setReg aKetchCfg (BitVec.ofNat 64 (leNum d.payload 1 1 +
        2 ^ 8 * leNum d.payload 2 1 + 2 ^ 16 * leNum d.payload 3 1 + 2 ^ 24 * leNum d.payload 4 1))).finish 0x61 d [])) ∧
    (s.takes 0x61 d → fits d.payload 5 = true → leNum d.payload 0 1 = s.member → s.member ≠ 0 → leNum d.payload 1 1 ≤ 16 →
      leNum d.payload 2 1 ≠ 0 → leNum d.payload 3 1 < 144 → leNum d.payload 4 1 < 144 → s.role = 0 →
      ∃ t, exec (.ketchSet d) s = .next (State.finish t 0x61 d []) ∧ t.role = s.member)

/-- Claims and pins: a granule's owner code or a resource's holder changes for every index of the range, and a pin that
HOST holds takes its configuration. -/
def Obligations.ClaimsTakeEffect : Prop :=
  ∀ (s : State) (d : Desc) (kind owner i n : Nat),
    (s.takes 0x80 d → claimOf s.part d.payload = some (kind, owner, i, n) →
      ((List.range n).all fun k => (s.rung 0x80 d).isFree kind (i + k)) = true →
      exec (.resourceClaim d) s = .next (((s.rung 0x80 d).forEach ((List.range n).map (i + ·)) fun s k =>
        if kind = 6 then s.setOwner k owner else s.setClaim kind k 1).finish 0x80 d [])) ∧
    (s.takes 0x81 d → claimOf s.part d.payload = some (6, owner, i, n) →
      ((List.range n).all fun k => (s.rung 0x81 d).ownerOf ((i + k) * 0x400_0000) == owner) = true →
      (16 ≤ owner ∨ (s.runsFree owner = false ∧ s.drains owner = false)) →
      exec (.resourceRelease d) s = .next (((s.rung 0x81 d).forEach ((List.range n).map (i + ·)) fun s k =>
        s.setOwner k 0x1F).finish 0x81 d [])) ∧
    (s.takes 0x81 d → claimOf s.part d.payload = some (kind, owner, i, n) → kind ≠ 6 →
      ((List.range n).all fun k => s.claim kind (i + k) == 1) = true →
      exec (.resourceRelease d) s = .next (((s.rung 0x81 d).forEach ((List.range n).map (i + ·)) fun s k =>
        if kind = 0 then (s.setClaim kind k 0).freePin k else s.setClaim kind k 0).finish 0x81 d [])) ∧
    (∀ (p : Nat) (v : W64), s.takes 0x82 d → d.payload = bytesOfNat 2 p ++ zeros 6 ++ bytesOfNat 8 v.toNat → p < 256 →
      s.claim 0 p = 1 → (funcsFor (fld v 4 3)).contains (fld v 0 3) = true → (fld v 4 3 = 6 → s.jtagScope 3 = true) →
      v &&& 0x7FFF_FFE0_C000_8088 = 0 → fld v 10 2 ≠ 3 → fld v 12 2 ≠ 3 →
      (2 ≤ fld v 0 3 → fld v 0 3 ≤ 4 → s.claim 3 (fld v 0 3 - 2) = 1) → (fld v 0 3 = 5 → s.claim 2 (fld v 24 6 % 8) = 1) →
      exec (.gpioConfig d) s = .next (((s.rung 0x82 d).setPinCfg p v).finish 0x82 d []))

/-- Debug commands on regions that are not fenced: RUN resumes each halted region, HALT and STEP request a halt of each and
wait for it, BREAK_SET writes the trigger. -/
def Obligations.DebugCommandsAct : Prop :=
  ∀ (s : State) (d : Desc),
    (s.takes 0x22 d → fits d.payload 4 = true → maskOf d.payload < 2 ^ 16 →
      (masked (maskOf d.payload)).all (fun m => !s.fenced m && s.rgnState m != 5) = true →
      exec (.run d) s = .next (((s.rung 0x22 d).forEach (masked (maskOf d.payload)) State.dbgRun).finish 0x22 d [])) ∧
    (s.takes 0x23 d → fits d.payload 16 = true → maskOf d.payload < 2 ^ 16 → allZero (sub d.payload 4 4) = true →
      leNum d.payload 8 8 = 0 → (masked (maskOf d.payload)).all (fun m => !s.fenced m) = true →
      exec (.halt d) s = .next (((s.rung 0x23 d).forEach (masked (maskOf d.payload)) State.haltReq).await 0x23 d
        (.halt (maskOf d.payload)))) ∧
    (s.takes 0x24 d → fits d.payload 12 = true → maskOf d.payload < 2 ^ 16 → leNum d.payload 4 1 ≤ 1 →
      allZero (sub d.payload 5 3) = true → 1 ≤ leNum d.payload 8 4 → leNum d.payload 8 4 < 2 ^ 20 →
      (masked (maskOf d.payload)).all (fun m => !s.fenced m) = true →
      exec (.step d) s = .next (((s.rung 0x24 d).forEach (masked (maskOf d.payload)) State.haltReq).await 0x24 d
        (.step (maskOf d.payload) (leNum d.payload 4 1) (leNum d.payload 8 4) false))) ∧
    (∀ kind i m, s.takes 0x25 d → breakTarget d.payload = some (kind, i, m) → s.fenced m = false →
      exec (.breakSet d) s = .next (((s.rung 0x25 d).breakWrite d.payload kind i).finish 0x25 d []))

/-- Region commands: REGION_FENCE raises the fence of every region of its mask that is not fenced and waits for the drains;
REGION_LOAD commits; REGION_RESUME arranges a release at a CLK_GLUE edge; REGION_POWER begins the transition of every region
of its mask that is fenced and stands in another state. -/
def Obligations.RegionCommandsAct : Prop :=
  ∀ (s : State) (d : Desc),
    (s.takes 0x30 d → fits d.payload 4 = true → maskOf d.payload < 2 ^ 24 →
      exec (.regionFence d) s = .next (((s.rung 0x30 d).forEach
        ((masked (maskOf d.payload)).filter fun m => s.rgnState m != 3 && !(decide (m < 16) && s.fenceDone m)) State.fenceRegion).await
          0x30 d (.fence (maskOf d.payload)))) ∧
    (s.takes 0x31 d → fits d.payload 8 = true → maskOf d.payload < 2 ^ 24 → leNum d.payload 4 4 ≤ 1 →
      ¬ (leNum d.payload 4 4 = 1 ∧ maskOf d.payload = 0) →
      ((s.rung 0x31 d).commitPartial (maskOf d.payload) (leNum d.payload 4 4 == 1)).2 = cOk →
      exec (.regionLoad d) s = .next (((s.rung 0x31 d).commitPartial (maskOf d.payload) (leNum d.payload 4 4 == 1)).1.finish 0x31 d [])) ∧
    (s.takes 0x32 d → fits d.payload 4 = true → maskOf d.payload < 2 ^ 24 → s.devState = 2 → s.bitOf aCascStat 5 = false →
      ((masked (maskOf d.payload)).any fun m => s.rgnState m != 2) = true →
      ((masked (maskOf d.payload)).all fun m => s.rgnState m == 2 || s.isLoaded m) = true →
      ∃ e t, exec (.regionResume d) s = .next (State.await t 0x32 d (.release (maskOf d.payload))) ∧
        s.tb + s.usTicks ≤ e ∧ e % s.glueTicks = 0 ∧
        t = (s.rung 0x32 d).draw.arrange
          { at_ := e, resume := true, leadSent := false, join := none, chan := some d.chan,
            es := (masked (maskOf d.payload)).filter fun m => s.rgnState m != 2 && decide (m < 16),
            gs := ((masked (maskOf d.payload)).filter fun m => s.rgnState m != 2 && decide (16 ≤ m)).map (· - 16) }) ∧
    (s.takes 0x33 d → fits d.payload 5 = true → maskOf d.payload < 2 ^ 16 → leNum d.payload 4 1 ≤ 2 →
      ((masked (maskOf d.payload)).all fun m => s.domainOf m == leNum d.payload 4 1 ||
        (s.fenceDone m && (s.rgnState m == 3 || s.rgnState m == 5) && !(s.domainOf m == 2 && leNum d.payload 4 1 == 1))) = true →
      exec (.regionPower d) s = .next (((s.rung 0x33 d).forEach
        ((masked (maskOf d.payload)).filter fun m => s.domainOf m != leNum d.payload 4 1)
        fun s m => s.powerBegin m (leNum d.payload 4 1)).await 0x33 d (.power (maskOf d.payload))))

/-- START of a device in COMMITTED outside a cascade arranges the release of every configured region at a CLK_GLUE edge at
least 1 µs ahead; STOP of a running device stops it at once. -/
def Obligations.StartAndStop : Prop :=
  ∀ (s : State) (d : Desc), s.leads = false →
    (s.takes 0x20 d → fits d.payload 0 = true → s.devState = 1 → (s.configuredEs.all fun m => s.rgnState m != 5) = true →
      ∃ e t, exec (.start d) s = .next (State.await t 0x20 d (.release 0xFF_FFFF)) ∧
        s.tb + s.usTicks ≤ e ∧ e % s.glueTicks = 0 ∧
        t = (s.rung 0x20 d).draw.arrange { at_ := e, resume := false, es := s.configuredEs, gs := s.configuredGs, leadSent := false,
                                            join := none, chan := some d.chan }) ∧
    (s.takes 0x21 d → fits d.payload 0 = true → s.devState = 2 →
      exec (.stop d) s = .next ((s.rung 0x21 d).stopDevice.finish 0x21 d [])) ∧
    (s.takes 0x21 d → fits d.payload 0 = true → s.devState ≠ 2 →
      exec (.stop d) s = .next ((s.rung 0x21 d).finish 0x21 d []))

/-- Capture, trace and state access (R406, R458, R461). STATE_READ and STATE_WRITE send their first request as the configuration
engine, at the range's first byte and within the range; the completion of the request that ends the range completes the
command with a header without failure, and with what was read. -/
def Obligations.ObserveCommandsAct : Prop :=
  ∀ (s : State) (d : Desc),
    (s.takes 0x40 d → fits d.payload 24 = true → allZero (sub d.payload 22 2) = true → leNum d.payload 20 1 ≤ 1 →
      leNum d.payload 21 1 ≤ 3 →
      let tiles := (List.range 64).filter (leNum d.payload 0 8).testBit
      let base := leNum d.payload 8 8
      let size := leNum d.payload 16 4
      let at_ := fun (t : Nat) => base + size * tiles.findIdx (· == t)
      (tiles = [] ∨ (size ≠ 0 ∧ size % 4096 = 0 ∧ size ≤ 0x1000_0000 ∧ base % 4096 = 0 ∧
        (tiles.all fun t => (s.rung 0x40 d).ownedBy 0x10 (at_ t) size) = true)) →
      exec (.captureSet d) s = .next (((s.rung 0x40 d).forEach (List.range 64) fun s t =>
        if tiles.contains t then
          s.capConfig t (BitVec.ofNat 64 (1 + 2 * leNum d.payload 20 1 + 4 * (leNum d.payload 21 1 % 2) +
            8 * (leNum d.payload 21 1 / 2) + at_ t % 2 ^ 48 + 2 ^ 48 * (size / 4096 % 65536)))
        else s.capConfig t (putFld (s.reg (aCapCfg t)) 0 1 0)).finish 0x40 d
          (tiles.flatMap fun t => bytesOfNat 8 (s.reg (aCapStat t)).toNat ++ bytesOfNat 8 (s.reg (aCapCnt t)).toNat))) ∧
    (s.takes 0x41 d → fits d.payload 176 = true → (s.rung 0x41 d).traceOk d.payload = true →
      exec (.traceSet d) s = .next ((s.rung 0x41 d).ttAllOff.await 0x41 d .drainTrace)) ∧
    (∀ a n, s.takes 0x42 d → d.payload = bytesOfNat 8 a ++ bytesOfNat 4 n → a < 2 ^ 64 → 8 ≤ n → n ≤ 0x100_0000 → n % 8 = 0 →
      rangeStatus a n = cOk → s.mci.cmds = [] → s.noc.tags = [] → s.ketch.resync = none →
      ∃ t x, exec (.stateRead d) s = .next t ∧ t.noc.tags = [x] ∧ x.use = .engine d.chan ∧ x.req.op = .rd ∧ x.req.origin = .config ∧
        x.req.addr = a ∧ 1 ≤ x.req.len ∧ x.req.len ≤ n ∧ t.bitOf aDbBusy d.chan = true ∧
        t.mci.cmds = [{ entering 0x42 d with task := .access false a n 0 [] false }]) ∧
    (∀ a n b, s.takes 0x43 d → d.payload = bytesOfNat 8 a ++ bytesOfNat 4 n ++ zeros 4 ++ b → b.length = n → a < 2 ^ 64 → 8 ≤ n →
      n ≤ 0x100_0000 → n % 8 = 0 → rangeStatus a n = cOk → s.undrained a = false → s.mci.cmds = [] → s.noc.tags = [] →
      s.ketch.resync = none →
      ∃ t x, exec (.stateWrite d) s = .next t ∧ t.noc.tags = [x] ∧ x.use = .engine d.chan ∧ x.req.op ≠ .rd ∧ x.req.origin = .config ∧
        x.req.addr = a ∧ 1 ≤ x.req.len ∧ x.req.data = b.take x.req.len ∧ t.bitOf aDbBusy d.chan = true ∧
        t.mci.cmds = [{ entering 0x43 d with task := .access true a n 0 [] false }]) ∧
    (∀ (p : Rsp) c x write a n done got bad, s.up → s.pwr.firmware = true → s.mci.cmds = [c] → c.chan < 16 →
      c.task = .access write a n done got bad → s.noc.tags = [x] → x.use = .engine c.chan → done + x.req.len = n →
      p.dstDev = s.pos → x.node = p.dstNode → x.port = p.dstPort → x.tag = p.tag → p.status = stOk → s.noc.arrived = [] →
      exec (.cpl p) s = .next (({ s with noc := { s.noc with tags := [] } } : State).complete c cOk
        (zeros 8 ++ [0] ++ bytesOfNat 1 (b2n (bad || p.poison)) ++ zeros 6 ++
          if write then [] else got ++ p.data.take x.req.len)))

/-- Lane and cascade commands. -/
def Obligations.LinkCommandsAct : Prop :=
  ∀ (s : State) (d : Desc),
    (s.takes 0x50 d → d.payload.length = 16 → linkRecOk d.payload (s.bitOf aMastStat 4) = true →
      (s.rung 0x50 d).linksUnder (linkRecOf d.payload) = [] →
      ((List.range (linkRecOf d.payload).lanes).all fun i => decide (s.claim 1 ((linkRecOf d.payload).first + i) ≤ 1)) = true →
      exec (.laneSet d) s = .next (((s.rung 0x50 d).laneSet (linkRecOf d.payload)).finish 0x50 d [])) ∧
    (s.takes 0x52 d → fits d.payload 8 = true → leNum d.payload 0 1 < 144 → leNum d.payload 1 1 = 0 → 1 ≤ leNum d.payload 2 1 → leNum d.payload 2 1 ≤ 3 →
      leNum d.payload 3 1 ≤ 2 → 1 ≤ leNum d.payload 4 4 → leNum d.payload 4 4 ≤ 60000 →
      s.links = [] → s.lnState (leNum d.payload 0 1) ≠ 6 →
      ∃ t, exec (.laneTest d) s = .next (State.await t 0x52 d (.laneTest (leNum d.payload 0 1))) ∧
        t.lnState (leNum d.payload 0 1) = 6 ∧ (t.link (leNum d.payload 0 1)).test ≠ none) ∧
    (s.takes 0x52 d → fits d.payload 8 = true → leNum d.payload 0 1 < 144 → leNum d.payload 1 1 = 0 → leNum d.payload 2 1 = 0 →
      leNum d.payload 3 1 ≤ 2 → 1 ≤ leNum d.payload 4 4 → leNum d.payload 4 4 ≤ 60000 → s.links = [] →
      exec (.laneTest d) s = .next ((s.rung 0x52 d).finish 0x52 d (zeros 16))) ∧
    (s.takes 0x60 d → d.payload.length = 16 → leNum d.payload 2 2 = 0 → 1000 ≤ leNum d.payload 4 4 → leNum d.payload 4 4 ≤ 10000 →
      leNum d.payload 8 4 = 0 → allZero (sub d.payload 12 4) = true → s.isMaster = true → s.pos = 0 → s.casc.form = none →
      s.devState ≠ 2 → leNum d.payload 0 2 / 2 ≠ 0 →
      exec (.cascadeForm d) s = .next (State.await
        { (s.rung 0x60 d).setFld aMastStat 2 2 0 with
          casc := { s.casc with form := some { chan := d.chan, expected := leNum d.payload 0 2, bExpected := 0, add := false,
                                               pair := false, links := [], found := [], bad := [] } } } 0x60 d .form)) ∧
    (s.takes 0x62 d → fits d.payload 1 = true → leNum d.payload 0 1 = 2 → s.leads = true → s.member = 1 → s.role ≠ 4 →
      s.ketch.resync = none → s.lnActive (s.fldOf aKetchCfg 24 8) = true → s.ketch.twinOut = true → s.twinsReady = true →
      ∃ t : State, exec (.ketchResync d) s = .next (State.await (t.sendFrame 6 s.present 0 (some d.chan) none) 0x62 d (.resync 2)) ∧
        t.ketch.resync.isSome = true)

/-- Staging and commit of images. -/
def Obligations.ImageCommandsAct : Prop :=
  ∀ (s : State) (d : Desc),
    (s.takes 0x10 d → fits d.payload 9 = true → s.staging = false → leNum d.payload 0 8 ≤ stageArea → leNum d.payload 8 1 ≤ 2 →
      ∃ t : State, exec (.imageBegin d) s = .next (t.finish 0x10 d []) ∧ t.engine.retained = none ∧
        t.engine.staging = some { total := leNum d.payload 0 8, kind := leNum d.payload 8 1, got := 0, source := 1 } ∧
        t.bitOf aCfgStatus 6 = false) ∧
    (∀ g, s.takes 0x11 d → s.engine.staging = some g → g.source = 1 → 8 < d.payload.length → leNum d.payload 0 8 = g.got →
      g.got + (d.payload.length - 8) ≤ g.total →
      ∃ t : State, exec (.imageData d) s = .next (t.finish 0x11 d []) ∧
        t.engine.staging = some { g with got := g.got + (d.payload.length - 8) } ∧
        t.mem = ((s.rung 0x11 d).directDram (s.stageBase + g.got) (d.payload.drop 8)).mem) ∧
    (∀ g, s.takes 0x12 d → s.engine.staging = some g → g.source = 1 → fits d.payload 0 = true → g.got = g.total →
      let st := (s.rung 0x12 d).imVerify ((s.rung 0x12 d).bytes s.stageBase g.total) s.stageBase g.kind fun _ => true
      ∃ t : State, exec (.imageEnd d) s = .next (t.complete (entering 0x12 d) st []) ∧ t.engine.staging = none ∧
        t.fldOf aCfgStatus 8 16 = st ∧ (st ≠ cOk → t.engine.retained = s.engine.retained) ∧
        (st = cOk → t.engine.retained = some { base := s.stageBase, total := g.total, source := 1 } ∧ t.bitOf aCfgStatus 6 = true)) ∧
    (s.takes 0x13 d → fits d.payload 0 = true →
      exec (.imageCommit d) s = .next ((s.rung 0x13 d).commitRetained.1.complete (entering 0x13 d) (s.rung 0x13 d).commitRetained.2 [])) ∧
    (s.takes 0x14 d → fits d.payload 1 = true → leNum d.payload 0 1 ≤ 1 → s.staging = false →
      ∃ t : State, exec (.imageFromFlash d) s = .next (t.await 0x14 d .flash) ∧ t.engine.flash = some (leNum d.payload 0 1) ∧
        t.engine.retained = none)

/-- Flash, firmware, life cycle and unlock commands. -/
def Obligations.SecurityCommandsAct : Prop :=
  ∀ (s : State) (d : Desc),
    (s.takes 0x15 d → 16 < d.payload.length → leNum d.payload 0 1 = 1 → leNum d.payload 1 1 ≤ 1 → allZero (sub d.payload 2 6) = true →
      leNum d.payload 8 8 + (d.payload.length - 16) ≤ 0x10_0000 → s.engine.flash = none →
      exec (.flashWrite d) s = .next (((s.rung 0x15 d).putMem (0x17_0030_0000 + leNum d.payload 8 8) (d.payload.drop 16)).finish
        0x15 d [])) ∧
    (s.takes 0x15 d → d.payload.length = 272 → leNum d.payload 0 1 = 2 → leNum d.payload 1 1 ≤ 1 →
      allZero (sub d.payload 2 6) = true → leNum d.payload 8 8 = 0 → bootRecordOk (d.payload.drop 16) = true →
      exec (.flashWrite d) s = .next (((s.rung 0x15 d).putMem 0x17_0000_0000 (d.payload.drop 16)).finish 0x15 d [])) ∧
    (s.takes 0x15 d → 16 < d.payload.length → leNum d.payload 0 1 = 0 → leNum d.payload 1 1 ≤ 1 → allZero (sub d.payload 2 6) = true →
      leNum d.payload 8 8 + (d.payload.length - 16) ≤ 2 ^ 32 → s.engine.flash = none →
      (s.rung 0x15 d).slotAddr 1 + leNum (s.rung 0x15 d).bootRecord 20 4 ≤ leNum d.payload 8 8 →
      ∃ t : State, exec (.flashWrite d) s = .next (t.finish 0x15 d []) ∧ t.mem = (s.rung 0x15 d).mem ∧
        t.sec.spi = putBytes (fun _ => 0xFF) s.sec.spi (leNum d.payload 8 8) (d.payload.drop 16)) ∧
    (s.takes 0x91 d → fits d.payload 2 = true → leNum d.payload 0 1 ≤ 1 → (leNum d.payload 1 1 < 64 ∨ leNum d.payload 1 1 = 0xFF) →
      let here := fun (t : Nat) => leNum d.payload 1 1 == 0xFF || t == leNum d.payload 1 1
      let r := s.rung 0x91 d
      let t := if leNum d.payload 0 1 = 0 then
          r.forEach (s.health.remaps.filter fun tc => here tc.1 && r.mayRemap tc.1) fun s tc => s.applyRemap tc.1 tc.2
        else r.forEach (s.health.rows.filter fun a => here (channelTile (dramChannel a))) State.repairRow
      exec (.repair d) s = .next (t.finish 0x91 d (bytesOfNat 4 (if leNum d.payload 0 1 = 0 then
        s.health.remaps.length - t.health.remaps.length else s.health.rows.length - t.health.rows.length)))) ∧
    (s.takes 0xA1 d → d.payload.length = 40 → leNum d.payload 0 1 = 1 → allZero (sub d.payload 1 7) = true →
      allZero (sub d.payload 8 32) = false → s.sec.lifecycle = 0 → s.devState ≠ 1 → s.devState ≠ 2 →
      ∃ t : State, exec (.lifecycleSet d) s = .next (t.finish 0xA1 d []) ∧ t.sec.lifecycle = 1 ∧
        t.sec.customerHash = sub d.payload 8 32) ∧
    (∀ b, s.takes 0xA2 d → d.payload = zeros 8 ++ b → fits d.payload (8 + (3796 + leNum d.payload 24 4)) = true →
      (s.rung 0xA2 d).packageStatus (b.take (3796 + leNum d.payload 24 4)) = cOk → s.defects = [] →
      ∃ t : State, exec (.fwUpdate d) s = .next (t.finish 0xA2 d (bytesOfNat 4 s.sec.fwVersion)) ∧
        t.sec.pendingSlot = some (1 - s.sec.active) ∧
        t.mem = ((s.rung 0xA2 d).putMem (slotBase (1 - s.sec.active)) (b.take (3796 + leNum d.payload 24 4))).mem) ∧
    (s.takes 0xA3 d → d.payload = [0] → s.sec.lifecycle ≠ 4 →
      ∃ t : State, exec (.debugUnlock d) s = .next (t.finish 0xA3 d ((List.range 32).map fun i => Config.freeByte (s.free + i))) ∧
        t.sec.challenge = some ((List.range 32).map fun i => Config.freeByte (s.free + i))) ∧
    (s.takes 0xA3 d → d.payload = [2] → s.sec.lifecycle ≠ 4 →
      exec (.debugUnlock d) s = .next ((s.rung 0xA3 d).endUnlock.finish 0xA3 d []))

/-- Without a channel of their own or beside its command (R394, R399, R401): every host write to a busy channel or its doorbell
is not performed, increments IGN_CNT and names the channel in IGN_CH, and the channel keeps its one command; HALT or STEP that
has waited 1 s completes with TIMEOUT, and a channel without either is left alone; of the commands relayed to a follower,
IDENTIFY answers the master with its result, an unknown opcode with BAD_OPCODE, and a second one while another is in progress
with BUSY; a master takes none. -/
def Obligations.ChannelRules : Prop :=
  ∀ (s : State),
    (∀ ch, s.up → ch < 16 → s.bitOf aDbBusy ch = true →
      exec (.busyChannelWrite ch) s = .next ((s.count aDbIgn 0 16).setFld aDbIgn 16 4 ch)) ∧
    (∀ (d : Desc), s.up → d.chan < 16 → s.bitOf aDbBusy d.chan = true → ∀ i ∈ [Instr.identify d, .status d, .eventRead d,
        .imageBegin d, .imageData d, .imageEnd d, .imageCommit d, .imageFromFlash d, .flashWrite d, .start d, .stop d, .run d,
        .halt d, .step d, .breakSet d, .regionFence d, .regionLoad d, .regionResume d, .regionPower d, .captureSet d, .traceSet d,
        .stateRead d, .stateWrite d, .laneSet d, .laneStatus d, .laneTest d, .cascadeForm d, .ketchSet d, .ketchResync d,
        .powerCap d, .reefPolicy d, .clockSet d, .sensorsRead d, .resourceClaim d, .resourceRelease d, .gpioConfig d,
        .healthReport d, .repair d, .attest d, .lifecycleSet d, .fwUpdate d, .debugUnlock d],
      ∃ t, exec i s = .next t ∧ t = s.setReg aDbIgn (t.reg aDbIgn) ∧ t.mci = s.mci ∧
        t.fldOf aDbIgn 0 16 = satAdd 16 (s.fldOf aDbIgn 0 16) 1 ∧ t.fldOf aDbIgn 16 4 = d.chan) ∧
    (∀ off v, s.up → off < 0x1_0000 → off % 8 = 0 → s.bitOf aDbBusy (off / 0x1000) = true → exec (.registerWrite .host (.bar0 off) 8 v) s =
      .next ((s.count aDbIgn 0 16).setFld aDbIgn 16 4 (off / 0x1000))) ∧
    (∀ off v, s.up → off < 0x1_0000 → off % 4 = 0 → s.bitOf aDbBusy (off / 0x1000) = true → exec (.registerWrite .host (.bar0 off) 4 v) s =
      .next ((s.count aDbIgn 0 16).setFld aDbIgn 16 4 (off / 0x1000))) ∧
    (∀ n, s.up → n < 16 → s.bitOf aDbBusy n = true → exec (.registerWrite .host (.bar0 0x1_0000) 4 (BitVec.ofNat 64 (2 ^ n))) s =
      .next ((s.count aDbIgn 0 16).setFld aDbIgn 16 4 n)) ∧
    (∀ c, s.up → s.pwr.firmware = true → s.mci.cmds = [c] → c.chan < 16 →
      ((∃ mask, c.task = .halt mask) ∨ ∃ mask unit n begun, c.task = .step mask unit n begun) → descNoIrq c.desc = true →
      ∃ t, exec (.haltTimeout c.chan) s = .next t ∧ t.mci.cmds = [] ∧ t.bitOf aDbBusy c.chan = false ∧
        t.bitOf aDbDone c.chan = true ∧ t.num (chanBase c.chan + 6) 2 = cTimeout ∧ t.num (chanBase c.chan + 12) 4 = 0 ∧
        (∀ a, a ≠ aDbBusy → a ≠ aDbDone → t.reg a = s.reg a) ∧ t.rgns = s.rgns ∧
        ∀ a, a < chanBase c.chan + 6 ∨ chanBase c.chan + 16 ≤ a → t.byte a = s.byte a) ∧
    (∀ ch, s.up → (∀ c ∈ s.mci.cmds, c.chan = ch → (∀ mask, c.task ≠ .halt mask) ∧ ∀ mask unit n begun, c.task ≠ .step mask unit n begun) →
      exec (.haltTimeout ch) s = .next s) ∧
    (s.up → s.pwr.firmware = true → s.isMaster = false → s.sec.lifecycle ≠ 4 → s.mci.cmds = [] →
      ∃ t, exec (.relayedCommand 0x01 []) s = .next t ∧
        t.casc.outbox = s.casc.outbox ++ [.relayReply 0x01 cOk (s.identityBlock ++ sha3 s.part.idKey)] ∧ t.mci.cmds = [] ∧
        t.regs = s.regs ∧ t.mem = s.mem) ∧
    (∀ op payload, s.up → s.pwr.firmware = true → s.isMaster = false → s.mci.cmds = [] → opcodes.contains op = false →
      ∃ t, exec (.relayedCommand op payload) s = .next t ∧ t.casc.outbox = s.casc.outbox ++ [.relayReply op cBadOpcode []] ∧
        t.mci.cmds = [] ∧ t.regs = s.regs ∧ t.mem = s.mem) ∧
    (∀ op payload c, s.up → s.isMaster = false → c ∈ s.mci.cmds → c.chan = 16 →
      exec (.relayedCommand op payload) s = .next (s.mgmtSend (.relayReply op cBusy []))) ∧
    (∀ op payload, s.up → s.isMaster = true → exec (.relayedCommand op payload) s = .next s)

/- Packet network. -/

/-- Requests that reach a target on this device (R205, R213, R216, R218, R221, R230, R231, R233, R261): left to a DRAM
controller, a scratchpad bank, the trace funnel, the host port or the user bus port of a glue region; read or written and answered; turned
away by the fence responder or the target with the status of their first failing check; a WRB with a free write buffer is
granted. A management request to the secure SRAM stays at its port until the wipe is over. -/
def Obligations.RequestsServed : Prop :=
  ∀ (s : State) (q : Req), s.up → q.dstDev = s.pos →
    let run := fun (q : Req) => match q.op with
      | .rd => exec (.rd q) s
      | .wr => exec (.wr q) s
      | .wrb => exec (.wrb q) s
    let secure := q.origin = .mgmt ∧ placeOf s.part q.addr = .secure ∧ s.pwr.wiped = false
    let taken := fun (t : State) => Host.Outcome.next (t.takeArrived (.req q))
    (secure → run q = .next s) ∧
    (¬ secure → q.dstNode < 64 → q.dstPort = 2 →
      (placeOf s.part q.addr = .dram → channelTile (dramChannel q.addr) = q.dstNode →
        run q = taken (s.dramArrive (tileChannel q.dstNode) q)) ∧
      (¬ (placeOf s.part q.addr = .dram ∧ channelTile (dramChannel q.addr) = q.dstNode) →
        run q = taken (s.answer q stDecode [] false))) ∧
    (¬ secure → ¬ (q.dstNode < 64 ∧ q.dstPort = 2) → ∀ st, s.responder q = some st → run q = taken (s.answer q st [] false)) ∧
    (¬ secure → 64 ≤ q.dstNode → q.dstPort = 2 → q.op ≠ .wrb →
      (s.hostReach = false → run q = taken ((s.count aHpStat 8 16).answer q stUnreachable [] false)) ∧
      (s.hostReach = true → q.op = .wr → run q = taken ((s.hostWrite q.addr q.data).answer q stOk [] false)) ∧
      (s.hostReach = true → q.op = .rd → run q = taken { s with host := { s.host with
        reads := s.host.reads ++ [{ tag := s.hostTag, chan := 0, req := some q }] } })) ∧
    (¬ secure → q.dstPort ≠ 2 → s.responder q = none →
      (s.targetStatus q ≠ stOk → (q.op = .wrb → s.bufferFree q = true) → run q = taken (s.answer q (s.targetStatus q) [] false)) ∧
      (q.op = .wrb → s.bufferFree q = false → run q = .next s) ∧
      (s.targetStatus q = stOk → q.op = .wrb → s.bufferFree q = true →
        ∃ t : State, run q = taken (t.inject q.dstNode q.dstPort (.rsp (grantOf q))) ∧
          t.noc.wbufs = s.noc.wbufs ++ [{ node := q.dstNode, port := q.dstPort, req := q }] ∧ t.mem = s.mem ∧ t.regs = s.regs) ∧
      (s.targetStatus q = stOk → q.op ≠ .wrb → Sys2Proof.Machine.atFunnel q = true →
        run q = taken { s with trace := { s.trace with atFunnel := s.trace.atFunnel ++ [q] } }) ∧
      (s.targetStatus q = stOk → q.op ≠ .wrb → Sys2Proof.Machine.atFunnel q = false →
        (∀ b, busReqOf s.part q = some b → run q = taken (s.busRequest b)) ∧
        (busReqOf s.part q = none →
          let s1 := s.openFor q.addr
          (q.dstNode < 64 → q.dstPort = 1 → run q = taken (s1.bankArrive q.dstNode q)) ∧
          (¬ (q.dstNode < 64 ∧ q.dstPort = 1) →
            (q.op = .rd → run q = taken ((s1.readAt q.origin q.addr q.len).1.answer q (s1.readAt q.origin q.addr q.len).2.1
              (s1.readAt q.origin q.addr q.len).2.2.1 (s1.readAt q.origin q.addr q.len).2.2.2)) ∧
            (q.op = .wr → run q = taken ((s1.writeAt q.origin q.addr q.data q.poison).1.answer q
              (s1.writeAt q.origin q.addr q.data q.poison).2 [] false))))))

/-- Answers at their requester on this device (R219, R220, R222, R229, R230): a GRANT is answered with the WDATA packet of the
held request; a completion or read data frees the tag first and then gives the requester its outcome; write data, once
checked, complete the DRAM transaction that awaits them, or are written by the endpoint whose buffer they fill. -/
def Obligations.AnswersSunk : Prop :=
  ∀ (s : State), s.up →
    (∀ p x, p.dstDev = s.pos → (s.noc.tags.find? fun x => x.node == p.dstNode && x.port == p.dstPort && x.tag == p.tag) = some x →
      exec (.grant p) s = .next ((s.takeArrived (.rsp p)).inject x.req.srcNode x.req.srcPort (.dat
        { write := true, urg := p.urg, dstNode := x.req.dstNode, dstPort := x.req.dstPort, tag := x.req.tag,
          srcNode := x.req.srcNode, srcPort := x.req.srcPort, status := 0, poison := x.req.poison, dstDev := x.req.dstDev,
          srcDev := x.req.srcDev, data := toBlock x.req.addr x.req.data }))) ∧
    (∀ p x t, p.dstDev = s.pos → (s.takeArrived (.rsp p)).releaseTag p.dstNode p.dstPort p.tag = some (x, t) →
      exec (.cpl p) s = .next (t.settleTag x p.status p.poison (p.data.take x.req.len)) ∧ t.noc.tags.length + 1 = s.noc.tags.length) ∧
    (∀ d x t, d.dstDev = s.pos → (s.takeArrived (.dat d)).releaseTag d.dstNode d.dstPort d.tag = some (x, t) →
      exec (.rdata d) s = .next (t.settleTag x d.status (sunk d).poison (ofBlock x.req.addr x.req.len (sunk d).data)) ∧
      t.noc.tags.length + 1 = s.noc.tags.length) ∧
    (∀ d x rest, d.dstDev = s.pos → d.dstNode < 64 → d.dstPort = 2 →
      takeFirst (fun x => x.awaitData && x.req.tag == d.tag && x.req.srcNode == d.srcNode && x.req.srcPort == d.srcPort &&
        x.req.srcDev == d.srcDev) (s.chan (tileChannel d.dstNode)).held = some (x, rest) →
      exec (.wdata d) s = .next ((s.takeArrived (.dat d)).setChan (tileChannel d.dstNode) { s.chan (tileChannel d.dstNode) with
        held := (s.chan (tileChannel d.dstNode)).held.map fun y => if y.slot == x.slot then
          { y with data := ofBlock x.req.addr x.req.len (sunk d).data, poison := (sunk d).poison, awaitData := false } else y })) ∧
    (∀ d b rest, d.dstDev = s.pos → d.dstPort ≠ 2 →
      takeFirst (fun b => b.node == d.dstNode && b.port == d.dstPort && b.req.tag == d.tag &&
        b.req.srcNode == d.srcNode && b.req.srcPort == d.srcPort && b.req.srcDev == d.srcDev) s.noc.wbufs = some (b, rest) →
      let s0 := s.takeArrived (.dat d)
      exec (.wdata d) s = .next (({ s0 with noc := { s0.noc with wbufs := rest } } : State).performReq
        { b.req with data := ofBlock b.req.addr b.req.len (sunk d).data, poison := (sunk d).poison }))

/-- Invalidations from the controller of a tile (R232, R233). INV at a tile takes the line, and no other, out of its stream
cache, and no other tile's; there and at a bridge node the same packet goes back to the controller with ACK set, and no memory
and no register changes. INV_ACK strikes its holder from the first transaction that waits for it: it waits for one
acknowledgement less; the transaction's invalidated entries leave the snoop filter with its last one, and only then. -/
def Obligations.InvalidationsAcknowledged : Prop :=
  ∀ (s : State) (p : Snp), s.up →
    (p.srcNode < 64 → ∃ t, exec (.inv p) s = .next t ∧
      t.noc.flights = s.noc.flights ++ [⟨p.dstNode, 2, 8 + p.dstPort, 0, 0,
        .snp { p with ack := true, dstNode := p.srcNode, dstPort := 2, srcNode := p.dstNode }⟩] ∧
      (p.dstNode < 64 → (∀ e, e ∈ (t.arr p.dstNode).cache ↔ e ∈ (s.arr p.dstNode).cache ∧ e.line ≠ p.line) ∧
        (p.line ∈ (s.arr p.dstNode).fills → p.line ∈ (t.arr p.dstNode).stale)) ∧
      (∀ k, k ≠ p.dstNode ∨ 64 ≤ p.dstNode → t.arr k = s.arr k) ∧ t.mem = s.mem ∧ t.regs = s.regs ∧ t.chans = s.chans) ∧
    (∀ pre x post, let g := tileChannel p.dstNode;
      let ack := 128 * p.line + (if p.srcNode < 64 then p.srcNode else 64);
      (s.chan g).held = pre ++ x :: post → (∀ y ∈ pre, ack ∉ y.acks) → ack ∈ x.acks → x ∉ pre → x ∉ post →
      ∃ t l, exec (.invAck p) s = .next t ∧ (t.chan g).held = pre ++ { x with acks := l } :: post ∧
        l.length + 1 = x.acks.length ∧ (∀ a, a ≠ ack → (a ∈ l ↔ a ∈ x.acks)) ∧
        (x.acks = [ack] → ∀ e, e ∈ (t.chan g).snoop ↔ e ∈ (s.chan g).snoop ∧ e.line ∉ x.inv) ∧
        (x.acks ≠ [ack] → (t.chan g).snoop = (s.chan g).snoop) ∧ (∀ k, k ≠ g → t.chan k = s.chan k) ∧ t.mem = s.mem ∧
        t.regs = s.regs)

/-- Router grants and waiting (R225 to R228, R237): the packet that the output chooses leaves its buffer and stands at the next
router's input in the class of the next link, or has reached its endpoint; the grant is remembered for the round robin. A
packet that has waited 64 cycles more gains one step of urgency, up to 15; a rise to 15 at a tile is counted in its NOC_RTR. -/
def Obligations.RoutersMovePackets : Prop :=
  (∀ (s : State) (node net out : Nat) (f : Flight), s.up → s.nocChoice node net out = some f →
    ∃ pre post t, s.noc.flights = pre ++ f :: post ∧ exec (.flitGrant node net out) s = .next t ∧
      (∀ next input, linkEnd node out = some (next, input) →
        t.noc.flights = pre ++ post ++ [{ node := next, net, input, vc := nextVc node out f.input f.vc, wait := 0, pkt := f.pkt }] ∧
        t.noc.arrived = s.noc.arrived) ∧
      (linkEnd node out = none → t.noc.flights = pre ++ post ∧ t.noc.arrived = s.noc.arrived ++ [f.pkt]) ∧
      (mapGet (fun _ => []) t.noc.rr ((node * 4 + net) * 16 + out)).getLast? = some f.input ∧
      (∀ k, k ≠ (node * 4 + net) * 16 + out → mapGet (fun _ => []) t.noc.rr k = mapGet (fun _ => []) s.noc.rr k) ∧
      t.mem = s.mem ∧ t.regs = s.regs ∧ t.noc.tags = s.noc.tags) ∧
  (∀ (s : State) (f : Flight), s.up → s.noc.flights = [f] → pktUrg f.pkt < 15 →
    ∃ t, exec (.urgencyRise f.node f.net f.input f.vc) s = .next t ∧
      t.noc.flights = [{ f with wait := f.wait + 64, pkt := pktWithUrg (pktUrg f.pkt + 1) f.pkt }] ∧
      (t.regs = if pktUrg f.pkt = 14 ∧ f.node < 64 then (s.count (aNocRtr f.node) 16 16).regs else s.regs) ∧ t.mem = s.mem)

/-- The pieces of a BAR2 request cover its bytes in address order, each within one 64-byte block; the request joins the
port's work, which is brought forward (R333). -/
def Obligations.Bar2Split : Prop :=
  (∀ (a n : Nat) (d : List Byte), n ≤ 4096 → d.length = n →
    ((bar2Split 4097 a n d).map (·.len)).sum = n ∧ ((bar2Split 4097 a n d).flatMap (·.data)) = d ∧
    ∀ p ∈ bar2Split 4097 a n d, 1 ≤ p.len ∧ p.addr % 64 + p.len ≤ 64) ∧
  (∀ (s : State) (write : Bool) (off len tag : Nat) (data : List Byte), s.up →
    exec (.bar2Request write off len tag data) s = .next
      (({ s with host := { s.host with bar2 := s.host.bar2 ++
        [{ tag, write, pieces := (bar2Split 4097 off len data).flatMap pieceForms }] } } : State).bar2Pump))

/- Boolean processors, clusters and memory models. -/

/-- What a BP gives (R35, R36, R57): the index into a truth table is A + 2B + 4C + 8D, for LUT and, with input 3 read as 0, for
LATCH; PASS copies the bit that SA names, HOLD repeats the BP's own result, NOP and the reserved opcodes give 0. The last
member of an aligned group of eight W8 members places on the bus the value of the member that the three selects name; every
other member places its own. -/
def Obligations.ProcessorsCompute : Prop :=
  (∀ (ft fidx sd sc sb sa : Nat) (bus : Bus) (own : Bool),
    let i := fun opc => ({ opc, fidx, sd, sc, sb, sa } : Bpi)
    let n := b2n (bus.getLsbD sa) + 2 * b2n (bus.getLsbD sb) + 4 * b2n (bus.getLsbD sc)
    (∀ j, bpResult [(i 1, ft)] bus own j = (decide (j = 0) && ft.testBit (n + 8 * b2n (bus.getLsbD sd)))) ∧
    bpResult [(i 2, ft)] bus own 0 = own ∧
    (bus.getLsbD sd = true → bpResult [(i 6, ft)] bus own 0 = ft.testBit n) ∧
    (bus.getLsbD sd = false → bpResult [(i 6, ft)] bus own 0 = own) ∧
    bpResult [(i 7, ft)] bus own 0 = bus.getLsbD sa ∧
    (∀ opc, opc = 0 ∨ 8 ≤ opc → bpResult [(i opc, ft)] bus own 0 = false)) ∧
  (∀ (g : List (Bpi × Nat)) (bus : Bus) (own : Bool), g.length = 8 → (∀ x ∈ g, x.1.opc = 5) →
    (∀ j, j < 7 → ∀ x, g[j]? = some x → bpResult g bus own j = wideMember x.2 x.1 bus) ∧
    (∀ x0 x1 x2 x, g[0]? = some x0 → g[1]? = some x1 → g[2]? = some x2 →
      g[b2n (bus.getLsbD x0.1.sd) + 2 * b2n (bus.getLsbD x1.1.sd) + 4 * b2n (bus.getLsbD x2.1.sd)]? = some x →
      bpResult g bus own 7 = wideMember x.2 x.1 bus))

/-- A data-store write takes from its source the bits of its mask and keeps every other bit; with LAST the word becomes
readable for the ecycle whose generation it carries and for no ecycle two away from it; another word keeps its readability
(R42, R44). -/
def Obligations.DataStoreWrites : Prop :=
  ∀ (s : State) (t pc w k : Nat) (mask src : W64), t < 64 → pc < 132 → w < 128 →
    let s1 := s.dsWrite t pc (k % 2) w mask src true (dsGen k)
    s1.word (aDs t pc (k % 2) w) = (s.word (aDs t pc (k % 2) w) &&& ~~~mask) ||| (src &&& mask) ∧
    s1.dsReady t pc w k = true ∧ s1.dsReady t pc w (k + 2) = false ∧
    (∀ v j, v < 128 → ¬ (v = w ∧ j % 2 = k % 2) → s1.dsReady t pc v j = s.dsReady t pc v j) ∧
    (s.dsWrite t pc (k % 2) w mask src false (dsGen k)).dsReady t pc w k = s.dsReady t pc w k

/-- Where a write of mode CUR or NEXT goes at each step of a period: bank and generation of the ecycle it belongs to; in the
window of ecycle 0, NEXT is not performed (R43). -/
def Obligations.WriteTargets : Prop :=
  ∀ (d : Sched) (p c : Nat),
    (d.win ≤ p → d.target p c false = some (c % 2, dsGen c) ∧ d.target p c true = some ((c + 1) % 2, dsGen (c + 1))) ∧
    (p < d.win → d.target p c false = some (c % 2, dsGen c) ∧
      d.target p c true = if c = 0 then none else some (c % 2, dsGen c))

/-- CLUSTER_STEP of a cluster in its region's usage table whose yard is open (R64, R75, R76): under region_hold it stays at its
step with HELD set and HOLD_SRC 11, and so with its own code at the first unmet Stay; a step that meets an uncorrectable error
sets ECC_UE and raises CLUSTER_ECC; otherwise the step is performed: STEP and, at the last step, the period advance, HELD
clears and the BP results are those of the step's operand bus. Another cluster takes none. HOLD_TIMEOUT sets its status bit and
raises the fault of the region (R64). REEFING_HOLD_STEP holds, with code 11 and at its step, every cluster of every released
region at levels 1 and 2, and nothing at the others (R380). That the Stays are judged before errors is the model's choice
(log 94). -/
def Obligations.ClusterStepsAct : Prop :=
  ∀ (s : State) (t c : Nat), s.up →
    let m := regionOfTile t
    let pc := s.phys t c
    let a := aCluStatus t pc
    let d := s.sched m
    let p := s.stepOf t pc
    let k := s.periodOf t pc
    let holds := fun (n : Nat) => ∃ u : State, exec (.clusterStep t c) s = .next (u.settleHalt m).settle ∧ u.stepOf t pc = p ∧
      u.periodOf t pc = k ∧ u.bitOf a 12 = true ∧ u.fldOf a 13 4 = n ∧ u.mem = s.mem ∧ u.sws = s.sws ∧ u.brs = s.brs
    ((s.rgn m).usage.clusters.contains (t, c) = true → s.clocked (cluLeaf t pc) = true →
      (s.regionHold m t pc p k = true → holds 11) ∧
      (s.regionHold m t pc p k = false → s.bitOf a 18 = false →
        (∀ n, p % d.div = 0 → s.stay m t pc d (s.ctl t pc (p / d.div)) p k = some n → n < 16 → holds n) ∧
        ((p % d.div = 0 → s.stay m t pc d (s.ctl t pc (p / d.div)) p k = none) →
          ((s.touched t pc p k d).any (fun x => s.eccMax x.addr x.len == 2) = true →
            ∃ (u : State) (f : Raised), exec (.clusterStep t c) s = .next (u.settleHalt m).settle ∧ u.stepOf t pc = p ∧
              u.bitOf a 18 = true ∧ u.raised = s.raised ++ [f] ∧ f.code = 2 ∧ f.region = m ∧ f.tile = t ∧ f.internal = true ∧
              u.mem = s.mem) ∧
          ((s.touched t pc p k d).any (fun x => s.eccMax x.addr x.len == 2) = false →
            ∃ (u : State) (x : CluStep), exec (.clusterStep t c) s = .next (u.stepEffects s x).settle ∧ x.m = m ∧ x.t = t ∧
              x.pc = pc ∧ x.p = p ∧ x.c = k ∧ u.bitOf a 12 = false ∧
              u.stepOf t pc = (if d.per ≤ p + 1 then 0 else p + 1) ∧ u.periodOf t pc = (if d.per ≤ p + 1 then k + 1 else k) ∧
              (u.clu (cluKey t pc)).results = bpResults (s.bpIns t pc p d.div) d.div x.bus (s.clu (cluKey t pc)).results)))) ∧
    (((s.rgn m).usage.clusters.contains (t, c) = false ∨ s.clocked (cluLeaf t pc) = false) →
      exec (.clusterStep t c) s = .next s.settle) ∧
    ((s.rgn m).usage.clusters.contains (t, c) = true → s.bitOf a 12 = true → s.bitOf a 17 = false → s.halted m = false →
      s.fenced m = false → s.rgnState m ≠ 5 →
      ∃ f u, exec (.holdTimeout t c) s = .next u ∧ u.raised = s.raised ++ [f] ∧ f.code = 1 ∧ f.region = m ∧ f.tile = t ∧
        f.cluster = c ∧ f.detail = BitVec.ofNat 64 (s.fldOf a 13 4 + 16 * p) ∧ u.bitOf a 17 = true ∧
        (∀ b, b ≠ a → u.reg b = s.reg b) ∧ u.mem = s.mem) ∧
    ((s.level = 1 ∨ s.level = 2) → ∃ u, exec .reefingHoldStep s = .next u ∧ u.mem = s.mem ∧ u.clus = s.clus ∧ u.sws = s.sws ∧
      u.brs = s.brs ∧ ∀ r, r < 16 → (s.rgn r).released = true → ∀ x, x ∈ s.members r → x.1 < 64 → x.2 < 132 →
        u.bitOf (aCluStatus x.1 x.2) 12 = true ∧ u.fldOf (aCluStatus x.1 x.2) 13 4 = 11 ∧ u.stepOf x.1 x.2 = s.stepOf x.1 x.2) ∧
    (s.level ≠ 1 → s.level ≠ 2 → exec .reefingHoldStep s = .next s)

/-- Memory-model units (R53, R55, R173, R196, R223): in a tile whose unit has its clock, the next access of a cluster that may go
is presented to its bank of the tile's scratchpad, if no other cluster's access goes before it and none of the clusters waits
at the bank, and is sent to DRAM with a free tag otherwise; an access that may not go stays. A read result enters MMR in issue
order, behind those already there, with the generation of its access; a read that is not performed enters as zero; a full MMR,
and a result that is not there, change nothing. -/
def Obligations.MemoryModelUnits : Prop :=
  ∀ (s : State) (t c : Nat), s.up → t < 64 →
    let pc := s.phys t c
    let k := cluKey t pc
    let u := { s.clu k with mm := dropRefused (s.clu k).mm }
    let s1 := s.setClu k u
    (s.clocked (leafYard t 10) = true →
      (u.candidate = none → exec (.mmUnitPresent t c) s = .next s1) ∧
      (∀ before a rest, u.candidate = some (before, a, rest) → (a.size = 4 ∨ a.size = 8) →
        (a.dram = true → s.noc.tags = [] →
          ∃ v x, exec (.mmUnitPresent t c) s = .next v ∧ v.noc.tags = [x] ∧ x.use = .mm t pc ∧ x.node = t ∧ x.port = 3 ∧ x.tag = 0 ∧
            x.req.addr = a.addr ∧ x.req.len = a.size ∧ x.req.origin = .region (regionOfTile t) ∧
            x.req.op = (if a.write then .wr else .rd) ∧ (a.write = true → x.req.data = bytesOfNat a.size a.data.toNat) ∧
            v.clu k = { u with mm := before ++ { a with phase := .sent } :: rest } ∧
            v.noc.flights = s.noc.flights ++ [{ node := t, net := 0, input := 11, vc := 0, wait := 0, pkt := .req x.req }] ∧
            v.mem = s.mem ∧ v.regs = s.regs ∧ ∀ j, j ≠ k → v.clu j = s.clu j) ∧
        (0x10_0000_0000 + 0x20_0000 * t ≤ a.addr → a.addr < 0x10_0020_0000 + 0x20_0000 * t →
          let b := bankKey t (a.addr / 0x2_0000 % 16)
          let first := (s1.rivals t b).all (fun x => decide (a.since < x.1 ∨ (a.since = x.1 ∧ s.nameOf t pc ≤ x.2))) = true ∧
            ∀ q ∈ (s.bank b).queue, ∀ n, q.src ≠ .mm n
          (first → ∃ v q, exec (.mmUnitPresent t c) s = .next v ∧ (v.bank b).queue = (s.bank b).queue ++ [q] ∧ q.src = .mm pc ∧
            q.write = a.write ∧ q.addr = a.addr ∧ q.len = a.size ∧ q.data = bytesOfNat a.size a.data.toNat ∧
            v.clu k = { u with mm := before ++ { a with phase := .sent } :: rest } ∧ v.noc = s.noc ∧ v.mem = s.mem ∧ v.regs = s.regs) ∧
          (¬ first → exec (.mmUnitPresent t c) s = .next s1)))) ∧
    (s.clocked (leafYard t 10) = false → exec (.mmUnitPresent t c) s = .next s) ∧
    (∀ before a rest, nextReturn [] (s.clu k).mm = some (before, a, rest) →
      ((a.phase = .done ∨ a.phase = .refused) → (s.clu k).mmr.length < 4 →
        ∃ v, exec (.mmrReturn t c) s = .next v ∧
          (v.clu k).mmr = (s.clu k).mmr ++ [{ gen := a.gen, data := if a.phase = .refused then 0 else a.data }] ∧
          (v.clu k).mm = before ++ { a with phase := .inMmr } :: rest ∧ v.mem = s.mem ∧ ∀ j, j ≠ k → v.clu j = s.clu j) ∧
      ((a.phase ≠ .done ∧ a.phase ≠ .refused) ∨ 4 ≤ (s.clu k).mmr.length → exec (.mmrReturn t c) s = .next s)) ∧
    (nextReturn [] (s.clu k).mm = none → exec (.mmrReturn t c) s = .next s)

/-- An access within its enabled, and for a write writable, window goes to BASE + offset × size; any other is not performed
and is counted in MM_RANGE (R52, R54, R55). -/
def Obligations.WindowsBound : Prop :=
  ∀ (s : State) (m t pc win off size k j : Nat) (write : Bool) (data : W64), (size = 4 ∨ size = 8) →
    let w := s.window t pc win
    let u := s.issue m t pc win off size k j write data
    (w.en = true → off * size + size ≤ w.size → (write = true → w.wr = true) →
      (u.clu (cluKey t pc)).mm = (s.clu (cluKey t pc)).mm ++
        [{ write, size, addr := w.base + off * size, data, gen := parity k, since := s.tb, phase := .waiting }] ∧
      u.reg (aCluErr t pc) = s.reg (aCluErr t pc) ∧
      ∀ b, b ∈ (List.range size).map (w.base + off * size + ·) → w.base ≤ b ∧ b < w.base + w.size) ∧
    (¬ (w.en = true ∧ off * size + size ≤ w.size ∧ (write = true → w.wr = true)) →
      (∃ a, (u.clu (cluKey t pc)).mm = (s.clu (cluKey t pc)).mm ++ [a] ∧ a.phase = .refused ∧ a.data = 0 ∧ a.gen = parity k) ∧
      u.fldOf (aCluErr t pc) 16 16 = satAdd 16 (s.fldOf (aCluErr t pc) 16 16) 1)

/-- Speed bridges (R49, R82, R85, R257): an input word enters all eight BRG latches of the home tile together, and leaves the
link, or none has room for it and it stays; a tick is answered with a word of its ecycle's generation that carries BR_IN; an
output word leaves the link with the next number, and updates BR_OUT at once, or waits under OUT_ALIGN for its release; the
release of a word that waits comes at or after its release point and its next CLK_GLUE edge, and updates BR_OUT. -/
def Obligations.BridgesAct : Prop :=
  ∀ (s : State) (m : Nat), s.up → m < 16 →
    let latch := fun (c : Nat) => cluKey (homeTile m) (s.phys (homeTile m) c)
    let room := ∀ c, c < 8 → (s.clu (latch c)).brg.length < 2
    (∀ w rest, (s.br m).up = w :: rest → room → (∀ i j, i < j → j < 8 → latch i ≠ latch j) →
      ∃ u, exec (.bridgeInputWord m) s = .next u ∧ (u.br m).up = rest ∧
        (∀ c, c < 8 → u.clu (latch c) = { s.clu (latch c) with brg := (s.clu (latch c)).brg ++ [w] }) ∧
        (∀ k, (∀ c, c < 8 → k ≠ latch c) → u.clu k = s.clu k) ∧ u.regs = s.regs ∧ u.mem = s.mem) ∧
    (¬ room ∨ (s.br m).up = [] → exec (.bridgeInputWord m) s = .next s) ∧
    (∀ k rest, (s.br m).ticks = k :: rest → ∃ u w, exec (.brTick m) s = .next u ∧ (u.br m).ticks = rest ∧ (u.br m).brIn = w ∧
      (u.br m).up = (s.br m).up ++ [{ gen := parity k, data := w }] ∧ (u.br m).down = (s.br m).down ∧ u.regs = s.regs ∧ u.mem = s.mem) ∧
    (∀ w rest, (s.br m).down = w :: rest →
      ∃ u, exec (.bridgeOutputWord m) s = .next u ∧ (u.br m).down = rest ∧ (u.br m).outCount = (s.br m).outCount + 1 ∧
        (∀ n, n ≠ m → u.br n = s.br n) ∧ u.regs = s.regs ∧ u.mem = s.mem ∧
        (s.bitOf (aRgnRt m) 10 = false ∨ (s.rgn m).stepping = true → (u.br m).brOut = w.data ∧ (u.br m).regd = (s.br m).regd) ∧
        (s.bitOf (aRgnRt m) 10 = true → (s.rgn m).stepping = false → (u.br m).brOut = (s.br m).brOut ∧ (u.br m).regd =
          (s.br m).regd ++ [{ n := (s.br m).outCount, w := w.data, at_ := roundUp s.tb s.glueTicks }])) ∧
    (∀ o rest, (s.br m).regd = o :: rest → ∃ u, exec (.outputRelease m) s = .next u ∧ (u.br m).brOut = o.w ∧
      (u.br m).regd = rest ∧ (s.rgn m).s0 + o.n * s.pace m + s.fldOf (aRgnRt m) 11 13 ≤ u.tb ∧ o.at_ + s.glueTicks ≤ u.tb)

/- Rigging network. -/

/-- A requested half swap of a released region inverts ACT_HALF, clears the request and is fixed for the lowest period that no
cluster of the region has begun; the new half's boundary and delivery entries of the region count from that ecycle on; in a
running region no cluster passes step 0 of the period before the swap has reached every tile, at most 24 CLK_STEP cycles
later. Without a request, or before the release, nothing changes (R108, R302; how the time is chosen, and the counts, are the
model's: log 21, log 95). -/
def Obligations.HalfSwapInverts : Prop :=
  ∀ (s : State) (m : Nat), s.up → m < 16 →
    ((s.rgn m).released = true → s.bitOf (aRgnRig m) 1 = true → ∃ u, exec (.halfSwap m) s = .next u ∧
      u.bitOf (aRgnRig m) 0 = !s.bitOf (aRgnRig m) 0 ∧ u.bitOf (aRgnRig m) 1 = false ∧
      u.fldOf (aRgnRig m) 2 48 = s.unbegun m % 2 ^ 48 ∧ (∀ a, a ≠ aRgnRig m → u.reg a = s.reg a) ∧
      (∀ t e, t < 64 → e ∈ s.slots t → e.owner = m → e.half = 1 - s.fldOf (aRgnRig m) 0 1 → (5 ≤ e.out ∨ boundaryOut t e.out = true) →
        u.slotCount t e.out e.half e.slot = s.joinEcy m + s.unbegun m) ∧
      (s.fenced m = true ∨ s.halted m = true → (u.rgn m).swapTick = (s.rgn m).swapTick) ∧
      (s.fenced m = false → s.halted m = false → s.tb ≤ (u.rgn m).swapTick ∧ (u.rgn m).swapTick ≤ s.tb + s.stepTicks 24 ∧
        ∀ t pc, s.tb < (u.rgn m).swapTick → s.unbegun m < 2 ^ 48 → u.regionHold m t pc 0 (s.unbegun m) = true) ∧
      u.clus = s.clus ∧ u.mem = s.mem) ∧
    (s.bitOf (aRgnRig m) 1 = false ∨ (s.rgn m).released = false → exec (.halfSwap m) s = .next s)

/-- Bundles (R87, R89, R91, R96 to R98, R100, R109, R112, R302). The first bundle on a link leaves it and waits in its buffer with
the copies of every entry that matches it, or, matching none, is counted and recorded in RIG_ERR. Of an output's contenders the
first in the order of service for which there is room leaves: on a link it goes under the entry's slot with its class and
owner, at a delivery it is parked; the entry's LAST_GEN takes its generation; every other contender has lost a collision,
counted, the latest loser recorded. A parked bundle that is the latch's next enters it and leaves its parking place. A credit on
its way back frees a place. A shroud offers one bundle of an entry it serves, of the generation that LAST_GEN has not. (Which
of several losers counts as the latest is the model's choice, log 95.) -/
def Obligations.BundlesMove : Prop :=
  ∀ (s : State) (t : Nat), s.up → t < 64 →
    (∀ port f rest, port < 4 → takeFirst (fun (f : Flying) => f.out == farInput port) (s.sw (neighbour t port)).flying = some (f, rest) →
      let c := s.matches t (0xF0 + port) f.b.half f.b.slot
      ∃ u, exec (.bundleArrival t port) s = .next (State.settle u) ∧ (u.sw (neighbour t port)).flying = rest ∧ u.mem = s.mem ∧
        (c ≠ [] → u.regs = s.regs ∧ mapGet (fun _ => []) (u.sw t).bufs (bufKey port f.b.vc) =
          mapGet (fun _ => []) (s.sw t).bufs (bufKey port f.b.vc) ++ [{ b := f.b, todo := c, since := s.tb }]) ∧
        (c = [] → (u.sw t).bufs = (s.sw t).bufs ∧ u.fldOf (aRigCnt t) 32 16 = satAdd 16 (s.fldOf (aRigCnt t) 32 16) 1 ∧
          u.fldOf (aRigErr t) 14 8 = 0xF0 + port ∧ u.fldOf (aRigErr t) 22 10 = f.b.slot % 1024 ∧
          u.fldOf (aRigErr t) 32 1 = f.b.half % 2)) ∧
    (∀ out x, out < 13 → x.b.half < 2 → x.slot < 1024 → firstOf (((s.sw t).contenders out).filter (s.outRoom t out)) = some x →
      let losers := ((s.sw t).contenders out).filter fun y => !(y.src == x.src && y.slot == x.slot && y.b.half == x.b.half)
      let k := slotKey out x.b.half x.slot
      let data := if 1024 ≤ x.src ∧ x.src < 10000 then s.reg (aSlot t out x.b.half x.slot 0) else x.b.data
      ∃ u, exec (.bundleGrant t out) s = .next (State.settle u) ∧ u.mem = s.mem ∧
        u.bitOf (aSlot t out x.b.half x.slot 1) 44 = x.b.gen ∧
        u.fldOf (aRigCnt t) 0 32 = satAdd 32 (s.fldOf (aRigCnt t) 0 32) losers.length ∧
        (∀ y, losers.getLast? = some y → u.fldOf (aRigErr t) 0 4 = out ∧ u.fldOf (aRigErr t) 4 10 = y.slot % 1024) ∧
        (out < 4 → (u.sw t).flying = (s.sw t).flying ++ [{ out, b := { x.b with
          slot := x.slot, vc := outClass t out x.src x.b, owner := (slotAt 0 (s.slotHi t out x.b.half x.slot)).owner, data } }]) ∧
        (5 ≤ out → mapGet (fun _ => 0) (s.sw t).joinBelow k ≤ mapGet (fun _ => 0) (s.sw t).counts k → s.absorbing t = false →
          (u.sw t).parked = (s.sw t).parked ++ [{ out, half := x.b.half, slot := x.slot, gen := x.b.gen, data }])) ∧
    (∀ c latch q, latch < 2 → (s.sw t).parked = [q] →
      let r := s.reg (aRxSeq t (s.phys t c))
      let e := slotAt 0 (s.slotHi t q.out q.half q.slot)
      let u := s.clu (cluKey t (s.phys t c))
      q.gen = bit r (32 * latch + 20) → e.seq = fld r (32 * latch + 10) 10 → b2n e.latch = latch → s.phys t e.dest = s.phys t c →
      (if latch = 0 then u.rx0 else u.rx1).length < 2 →
      ∃ v, exec (.latchDelivery t c latch) s = .next (State.settle v) ∧ (v.sw t).parked = [] ∧
        (if latch = 0 then (v.clu (cluKey t (s.phys t c))).rx0 else (v.clu (cluKey t (s.phys t c))).rx1) =
          (if latch = 0 then u.rx0 else u.rx1) ++ [{ gen := q.gen, data := q.data }]) ∧
    (∀ out vc n, mapGet (fun _ => 0) (s.sw t).back (2 * out + vc) = n + 1 →
      ∃ v, exec (.creditReturn t out vc) s = .next v ∧ mapGet (fun _ => 0) (v.sw t).back (2 * out + vc) = n ∧
        mapGet (fun _ => 0) (v.sw t).used (2 * out + vc) = mapGet (fun _ => 0) (s.sw t).used (2 * out + vc) - 1 ∧
        v = s.setSw t (v.sw t)) ∧
    (∀ out h slot, s.shroudServes (regionOfTile t) t out h slot = true → (s.sw t).offers = [] →
      ∃ v, exec (.shroudEmission t out h slot) s = .next v ∧ (v.sw t).offers =
        [{ out, half := h, slot, gen := !(slotAt 0 (s.slotHi t out h slot)).lastGen, since := s.tb }] ∧
        (v.sw t).bufs = (s.sw t).bufs ∧ (v.sw t).inj = (s.sw t).inj ∧ (∀ k, k ≠ t → v.sw k = s.sw k) ∧ v.regs = s.regs ∧ v.mem = s.mem)

/- Stream arrays and scratchpads. -/

/-- Steps of a stream array whose yard is open (R137, R142, R150 to R153, R155, R165, R167, R168): a thread that does not run, or
whose step is of the other kind, does nothing; one that is held by its region, its stop, its frame, a macro-node input or a port
holds with its code and HELD set; one that meets an uncorrectable error or an invalid entry stops with STREAM_FAULT and its
cause. A switch step loads the context of its entry and begins run step 1, or hands the frame to the T thread; a run step gives
every FU of the thread its result, and P where the operation sets it, from the values before the step, then goes to the next
run step or by its entry's kind to the next entry. What follows in the trace, the breakpoints and the halt is `arrayEffects`. -/
def Obligations.ArraySteps : Prop :=
  ∀ (s : State) (t n : Nat), s.up → t < 64 → n < 2 → s.clocked (leafYard t 9) = true →
    let m := regionOfTile t
    let a := aArrStatus t
    let x := (s.arr t).thread n
    let pc := s.seqPc t n
    let e := s.seqEntry t pc
    let idle := fun (o : Host.Outcome State Fault Refusal) => o = .next (s.settleHalt m).settle
    let holds := fun (o : Host.Outcome State Fault Refusal) (k : Nat) => ∃ u : State, o = .next (u.settleHalt m).settle ∧
      u.bitOf a 17 = true ∧ u.fldOf a 18 3 = k ∧ u.seqPc t n = pc ∧ ((u.arr t).thread n).run = x.run ∧ u.mem = s.mem
    let stops := fun (o : Host.Outcome State Fault Refusal) (cause : Nat) => ∃ (u : State) (f : Raised),
      o = .next (u.settleHalt m).settle ∧ u.bitOf a 21 = true ∧ u.raised = s.raised ++ [f] ∧ f.code = 5 ∧ f.region = m ∧ f.tile = t ∧
      fld f.detail 0 4 = cause ∧ fld f.detail 4 8 = pc ∧ u.mem = s.mem
    let done := fun (o : Host.Outcome State Fault Refusal) (switch : Bool) (p : State → Prop) => ∃ (u : State) (z : ArrStep),
      o = .next (arrayEffects t x.frame (u, some z)).settle ∧ z.t = t ∧ z.thread = n ∧ z.entry = pc ∧ z.switch = switch ∧ p u
    (s.threadRuns t n = false → idle (exec (.switchStep t n) s) ∧ idle (exec (.runStep t n) s)) ∧
    (x.run = 0 → idle (exec (.runStep t n) s)) ∧
    (x.run ≠ 0 → idle (exec (.switchStep t n) s)) ∧
    (s.threadRuns t n = true → x.run = 0 →
      (∀ k, s.threadHold t n = some k → holds (exec (.switchStep t n) s) k) ∧
      (s.threadHold t n = none →
        (∀ k, x.begun = false → s.frameMayBegin m x.frame = some k → holds (exec (.switchStep t n) s) k) ∧
        (x.begun = true ∨ s.frameMayBegin m x.frame = none →
          (s.eccMax (aSeqEntry t pc) 8 = 2 → stops (exec (.switchStep t n) s) 2) ∧
          (s.eccMax (aSeqEntry t pc) 8 ≠ 2 → s.seqInvalid t n e = true → stops (exec (.switchStep t n) s) 4) ∧
          (s.eccMax (aSeqEntry t pc) 8 ≠ 2 → s.seqInvalid t n e = false →
            (s.eccMax (aContext t e.ctx) 2048 = 2 → stops (exec (.switchStep t n) s) 1) ∧
            (s.eccMax (aContext t e.ctx) 2048 ≠ 2 →
              (e.kind = 5 → s.tBusy t = true → holds (exec (.switchStep t n) s) 5) ∧
              (e.kind = 5 → s.tBusy t = false → done (exec (.switchStep t n) s) true fun u => u.tBusy t = true ∧
                (u.arr t).t.run = 0 ∧ (u.arr t).t.frame = x.frame ∧ (u.arr t).t.begun = true ∧ u.seqPc t 1 = e.target ∧
                (u.arr t).h.run = 0 ∧ (u.arr t).h.frame = x.frame + 1 ∧ (u.arr t).h.begun = false ∧
                u.seqPc t 0 = s.fldOf (aArrCfg t) 2 8 ∧ u.mem = s.mem) ∧
              (e.kind ≠ 5 → done (exec (.switchStep t n) s) true fun u => ((u.arr t).thread n).run = 1 ∧
                ((u.arr t).thread n).ctx = e.ctx ∧ ((u.arr t).thread n).cfg = s.bytes (aContext t e.ctx) 2048 ∧
                ((u.arr t).thread n).frame = x.frame ∧ ((u.arr t).thread n).begun = true ∧ (u.arr t).outs = (s.arr t).outs ∧
                (u.arr t).preds = (s.arr t).preds ∧ u.seqPc t n = pc ∧ u.mem = s.mem)))))) ∧
    (s.threadRuns t n = true → x.run ≠ 0 →
      let l := if x.run = 1 then s.setArr t ((s.arr t).setThread n { x with mni := s.mniLatch t n }) else s
      (∀ k, s.threadHold t n = some k → holds (exec (.runStep t n) s) k) ∧
      (s.threadHold t n = none →
        (x.run = 1 → s.mniReady t n = false → holds (exec (.runStep t n) s) 1) ∧
        (x.run ≠ 1 ∨ s.mniReady t n = true →
          (∀ k, s.portHold t n x.run = some k → holds (exec (.runStep t n) s) k) ∧
          (s.portHold t n x.run = none →
            (s.headBad t n = true ∨ s.descrBad t n x.run = true ∨ s.rfBad t n ≠ none → stops (exec (.runStep t n) s) 3) ∧
            (s.headBad t n = false → s.descrBad t n x.run = false → s.rfBad t n = none →
              done (exec (.runStep t n) s) false fun u =>
                (∀ v, v ∈ s.fusOf t n → v < 96 → match l.fuStep t n v with
                  | some (r, p) => u.outReg t v = r ∧
                      mapGet (fun _ => false) (u.arr t).preds v = if p then r.getLsbD 0 else mapGet (fun _ => false) (s.arr t).preds v
                  | none => u.outReg t v = s.outReg t v ∧
                      mapGet (fun _ => false) (u.arr t).preds v = mapGet (fun _ => false) (s.arr t).preds v) ∧
                (x.run ≤ e.run → ((u.arr t).thread n).run = x.run + 1 ∧ u.seqPc t n = pc) ∧
                (e.run < x.run →
                  let w := u.seqEntry t pc
                  (w.kind ≠ 3 → ((u.arr t).thread n).run = 0) ∧ (w.kind = 0 → u.seqPc t n = (pc + 1) % 256) ∧
                  (w.kind = 1 → w.pfu < 96 → u.seqPc t n =
                    if mapGet (fun _ => false) (u.arr t).preds w.pfu == !w.pol then w.target else (pc + 1) % 256) ∧
                  (w.kind = 2 → u.seqPc t n = w.target) ∧
                  (w.kind = 4 → n = 0 → u.seqPc t 0 = s.fldOf (aArrCfg t) 2 8 ∧ (u.arr t).h.frame = x.frame + 1 ∧
                    (u.arr t).h.begun = false) ∧
                  (w.kind = 4 → n = 1 → u.tBusy t = false)))))))

/-- Stream ports (R159, R160, R162, R165 to R167, R451). A read port that is fenced, off, ended, full or not one fetches nothing; one whose
descriptor holds an uncorrectable error stops the array; else its next element is asked of the tile's own bank, or with a free
tag of the packet network, or comes from the cache, or asks for its line. A write port's first element is stored at the own
bank or, with a free tag, over the packet network, and waits there until it is answered. The watchdog raises STREAM_FAULT with
cause 5 for a held array whose region is not held and whose hold has a cause that is counted, and does nothing else. -/
def Obligations.StreamPortsAct : Prop :=
  ∀ (s : State) (t n : Nat), s.up → t < 64 → n < 8 →
    let m := regionOfTile t
    let p := (s.arr t).port n
    let da := aDescr t (s.portDescr t n)
    let d := descrOf (s.bytes da 32)
    let ad := d.at p.idx
    let own := fun (a : Nat) => 0x10_0000_0000 + 0x20_0000 * t ≤ a ∧ a < 0x10_0020_0000 + 0x20_0000 * t
    let bank := fun (a : Nat) => bankKey t (a / 0x2_0000 % 16)
    let fetches := s.fenced m = false ∧ s.arrOn t = true ∧ s.portIs t n 0 = true ∧ p.done = false ∧ s.arrStopped t = false ∧
      p.fifo.length < 64
    let asked := fun (u : State) (k : Nat) => ((u.arr t).port n).fifo =
      p.fifo ++ [{ addr := ad, elem := d.elem, val := none, ecc := 0, asked := k }] ∧ u.mem = s.mem
    (¬ fetches → exec (.streamPortFetch t n) s = .next s) ∧
    (fetches → s.eccMax da 32 = 2 → ∃ u f, exec (.streamPortFetch t n) s = .next u ∧ u.bitOf (aArrStatus t) 21 = true ∧
      u.raised = s.raised ++ [f] ∧ f.code = 5 ∧ f.region = m ∧ f.tile = t ∧ fld f.detail 0 4 = 3 ∧ u.mem = s.mem) ∧
    (fetches → s.eccMax da 32 ≠ 2 →
      (own ad → ∃ u q, exec (.streamPortFetch t n) s = .next u ∧ asked u 1 ∧
        (u.bank (bank ad)).queue = (s.bank (bank ad)).queue ++ [q] ∧ q.src = .sa n ∧ q.write = false ∧ q.addr = ad ∧
        q.len = elemSize d.elem ∧ u.noc = s.noc) ∧
      (¬ own ad → d.noCache = true ∨ 0x10_0000_0000 ≤ ad → s.noc.tags = [] → ∃ u x, exec (.streamPortFetch t n) s = .next u ∧ asked u 1 ∧
        u.noc.tags = [x] ∧ x.use = .stream t n ∧ x.req.op = .rd ∧ x.req.addr = ad ∧ x.req.len = elemSize d.elem ∧
        x.req.origin = .region m) ∧
      (d.noCache = false → ad < 0x10_0000_0000 →
        let c := (s.arr t).cache.find? fun c => c.line == ad / 64 && c.ecc != 2
        (∀ l, c = some l → p.fifo = [] → ∃ u, exec (.streamPortFetch t n) s = .next u ∧ ((u.arr t).port n).fifo = [{
          addr := ad, elem := d.elem, val := some (elemWord d.elem (sub l.data (ad - 64 * (ad / 64)) (elemSize d.elem))), ecc := 0 }] ∧
          u.fldOf (aArrCache t) 0 32 = satAdd 32 (s.fldOf (aArrCache t) 0 32) 1 ∧ u.mem = s.mem) ∧
        (c = none → ad / 64 ∉ (s.arr t).fills → s.noc.tags = [] → ∃ u x, exec (.streamPortFetch t n) s = .next u ∧ asked u 2 ∧
          u.noc.tags = [x] ∧ x.use = .stream t n ∧ x.req.op = .rd ∧ x.req.addr = 64 * (ad / 64) ∧ x.req.len = 64 ∧
          (u.arr t).fills = (s.arr t).fills ++ [ad / 64] ∧
          u.fldOf (aArrCache t) 32 32 = satAdd 32 (s.fldOf (aArrCache t) 32 32) 1))) ∧
    (∀ w rest, p.fifo = w :: rest → p.storing = false → s.portIs t n 1 = true →
      (w.ecc = 2 → ∃ u f, exec (.streamPortStore t n) s = .next u ∧ u.bitOf (aArrStatus t) 21 = true ∧ u.raised = s.raised ++ [f] ∧
        f.code = 5 ∧ fld f.detail 0 4 = 3 ∧ u.mem = s.mem) ∧
      (w.ecc ≠ 2 → own w.addr → ∃ u q, exec (.streamPortStore t n) s = .next u ∧ ((u.arr t).port n).storing = true ∧
        (u.bank (bank w.addr)).queue = (s.bank (bank w.addr)).queue ++ [q] ∧ q.src = .sa n ∧ q.write = true ∧ q.addr = w.addr ∧
        q.data = bytesOfNat (elemSize w.elem) (w.val.getD 0).toNat ∧ u.mem = s.mem) ∧
      (w.ecc ≠ 2 → ¬ own w.addr → s.noc.tags = [] → ∃ u x, exec (.streamPortStore t n) s = .next u ∧
        ((u.arr t).port n).storing = true ∧ x ∈ u.noc.tags ∧ x.use = .stream t n ∧ x.req.op = .wr ∧ x.req.addr = w.addr ∧
        x.req.data = bytesOfNat (elemSize w.elem) (w.val.getD 0).toNat ∧ u.mem = s.mem)) ∧
    (p.fifo = [] ∨ p.storing = true ∨ s.portIs t n 1 = false → exec (.streamPortStore t n) s = .next s) ∧
    (∀ th, th < 2 →
      let h := s.fldOf (aArrStatus t) 18 3
      let due := s.bitOf (aArrStatus t) 17 = true ∧ s.arrRegionHold t th = false ∧ h ≠ 0 ∧ h ≠ 4 ∧ h ≠ 6
      (due → ∃ f, exec (.arrayHoldTimeout t th) s = .next { s with raised := s.raised ++ [f] } ∧ f.code = 5 ∧ f.region = m ∧
        f.tile = t ∧ fld f.detail 0 4 = 5 ∧ fld f.detail 12 1 = th) ∧
      (¬ due → exec (.arrayHoldTimeout t th) s = .next s))

/-- BANK_GRANT of a bank that is ON, in a tile whose scratchpad has its clock (R172, R175, R182, R183, R219). Of the requests that wait the bank serves the
one that R175 and R176 choose; every other has lost a cycle, and each class among them is counted once. A request of one word, a
read or a write of the whole word, is answered in that cycle: a packet with its data, poisoned after an uncorrectable error, a
memory-model access and a stream element with their outcome. A write of part of a word whose old word can be read takes a second
cycle, which makes it; an empty bank does nothing. -/
def Obligations.BankGrants : Prop :=
  ∀ (s : State) (t b : Nat), s.up → t < 64 → b < 16 → s.clocked (leafYard t 12) = true → s.bankState t b = 0 →
    (s.bank (bankKey t b)).waking = false → (s.bank (bankKey t b)).zeroing = false →
    let k := bankKey t b
    let lose := fun (l : List BankReq) => l.map fun r => { r with lost := r.lost + 1 }
    let cls := fun (q : BankReq) => match q.src with
      | .mm _ => 0
      | .sa _ => 1
      | .noc _ | .dbg _ => 2
    let counted := fun (u : State) (l : List BankReq) => ∀ i, i < 3 →
      u.fldOf (aSpCnt t) (16 * i) 16 = satAdd 16 (s.fldOf (aSpCnt t) (16 * i) 16) (b2n (l.any fun q => cls q == i))
    let answered := fun (u : State) (q : BankReq) (ok : Bool) (data : List Byte) =>
      (∀ p, q.src = .noc p ∨ q.src = .dbg p → exec (.bankGrant t b) s = .next (u.answer p stOk data (!ok))) ∧
      (∀ pc, q.src = .mm pc → exec (.bankGrant t b) s =
        .next (u.mmOutcome t pc q.addr q.write ok (BitVec.ofNat 64 (natOfBytes data)))) ∧
      (∀ n, q.src = .sa n → exec (.bankGrant t b) s = .next (u.arrayOutcome t n q.addr q.len q.write ok data))
    ((s.bank k).second = none → (s.bank k).queue = [] → exec (.bankGrant t b) s = .next s) ∧
    (∀ q aged pre post, (s.bank k).second = none → s.bankLeaving t b = false → s.bankChoice t b = some (q, aged) →
      (s.bank k).queue = pre ++ q :: post → q ∉ pre → q.got = [] → q.bad = false → 1 ≤ q.len → q.addr % 8 + q.len ≤ 8 →
      q.data.length = (if q.write then q.len else 0) →
      (q.write = false → ∃ u, answered u q (decide (s.eccOf q.addr ≠ 2)) (s.bytes q.addr q.len) ∧
        (u.bank k).queue = lose (pre ++ post) ∧ counted u (pre ++ post) ∧ u.mem = s.mem) ∧
      (q.write = true → q.len = 8 → ∃ u, answered u q true (zeros 8) ∧ (u.bank k).queue = lose (pre ++ post) ∧
        counted u (pre ++ post) ∧ u.bytes q.addr 8 = q.data ∧ u.eccOf q.addr = (if q.poison then 2 else 0) ∧
        ∀ a, a < q.addr ∨ q.addr + 8 ≤ a → u.byte a = s.byte a) ∧
      (q.write = true → q.len < 8 → s.eccOf q.addr = 2 → ∃ u, answered u q false (zeros q.len) ∧
        (u.bank k).queue = lose (pre ++ post) ∧ counted u (pre ++ post) ∧ u.mem = s.mem) ∧
      (q.write = true → q.len < 8 → s.eccOf q.addr ≠ 2 → ∃ u, exec (.bankGrant t b) s = .next u ∧ (u.bank k).second = some q ∧
        (u.bank k).queue = lose (pre ++ post) ∧ counted u (pre ++ post) ∧ u.mem = s.mem)) ∧
    (∀ q, (s.bank k).second = some q → s.bankLeaving t b = false → q.write = true → q.got = [] → q.bad = false → 1 ≤ q.len →
      q.addr % 8 + q.len ≤ 8 → q.data.length = q.len → ∃ u, answered u q true (zeros q.len) ∧ (u.bank k).second = none ∧
        (u.bank k).queue = lose (s.bank k).queue ∧ counted u (s.bank k).queue ∧ u.bytes q.addr q.len = q.data ∧
        ∀ a, a < q.addr ∨ q.addr + q.len ≤ a → u.byte a = s.byte a)

/-- Banks beside their grants (R172, R175, R180, R182). A lone request of one whole word at a bank that is ON and stays so: a
write stores it and makes its check bits good, or marks it uncorrectable where its data are poisoned; a read returns the word,
and says whether it held an uncorrectable error; the queue is empty after, and no other byte has changed. In an idle cycle of a
bank that is ON the first corrected word that is owed one has its write back, after which it holds no correctable error; a bank
that has left RETENTION is no longer waking; a bank that leaves OFF has every byte zero without errors, and no byte outside it
changes. -/
def Obligations.BankWordAndPower : Prop :=
  ∀ (s : State) (t b : Nat), s.up → t < 64 → b < 16 →
    let k := bankKey t b
    (∀ q : BankReq, s.bankState t b = 0 → (s.bank k).waking = false → (s.bank k).zeroing = false → (s.bank k).queue = [q] →
      (s.bank k).second = none → s.bankLeaving t b = false → q.got = [] → q.len = 8 → q.addr % 8 = 0 → q.data.length = 8 →
      ∃ u d, s.bankGrant t b = (u, some d) ∧ (u.bank k).queue = [] ∧ d.src = q.src ∧ d.addr = q.addr ∧ d.write = q.write ∧
        (q.write = true → u.bytes q.addr 8 = q.data ∧ (u.eccOf q.addr = if q.poison then 2 else 0) ∧
          ∀ a, a < q.addr ∨ q.addr + 8 ≤ a → u.byte a = s.byte a) ∧
        (q.write = false → u.mem = s.mem ∧ d.data = s.bytes q.addr 8 ∧ d.ok = decide (s.eccOf q.addr ≠ 2 ∧ q.bad = false))) ∧
    (∀ a rest, (s.bank k).owed = a :: rest → (s.bank k).queue = [] → (s.bank k).second = none → s.bankState t b = 0 →
      ∃ u, exec (.correctedWriteBack t b) s = .next u ∧ (u.bank k).owed = rest ∧ u.eccOf a ≠ 1 ∧ u.mem = s.mem ∧ u.regs = s.regs) ∧
    ((s.bank k).waking = true → ∃ u, exec (.bankWake t b) s = .next u ∧ u.bank k = { s.bank k with waking := false } ∧
      (∀ j, j ≠ k → u.bank j = s.bank j) ∧ u.regs = s.regs ∧ u.mem = s.mem) ∧
    ((s.bank k).zeroing = true → ∃ u, exec (.bankZeroFill t b) s = .next u ∧ (u.bank k).zeroing = false ∧
      (∀ a, bankBase t b ≤ a → a < bankBase t b + 0x2_0000 → u.byte a = 0 ∧ u.eccOf a = 0) ∧
      (∀ a, a < bankBase t b ∨ bankBase t b + 0x2_0000 ≤ a → u.byte a = s.byte a) ∧ u.regs = s.regs)

/- Writes with a row of their own. -/

/-- Writes that reach their target by a row of their own (R95, R179, R181, R209, R244, R247, R249, R252, R253). SP_PWR takes the
request of every bank, but for one whose region is ON and lists it (log 99), and every bank with nothing under way then stands
at the more restrictive of its request and the compute domain. GCLK_SEL takes SRC and clears SWITCH_FORCED for a 1, and waits
for a switch whose old source has stopped; tree 0 takes no write. DCO_CFG takes values in range, and a change of frequency or
enable begins its judging anew. A requester that R209 keeps out, or a DCO value out of range, changes none of them and is
recorded. A slot-table entry of the half that its owner's region does not use changes while that region is fenced or halted and
past its latest swap, else the write is recorded; a word of a fenced glue region's frames changes, and nothing else in memory. -/
def Obligations.WritesReachTargets : Prop :=
  ∀ (s : State) (v : W64), s.up →
    (∀ t, t < 64 → s.responder (writeOf s.part .mgmt (aSpPwr t) (regBytes v)) = none →
      ∃ u, exec (.spPwrWrite .mgmt t v) s = .next u ∧ ∀ b, b < 16 →
        (¬ (s.bankUsed t b = true ∧ fld v (2 * b) 2 ≠ 0) → u.fldOf (aSpPwr t) (2 * b) 2 = fld v (2 * b) 2) ∧
        (s.bankUsed t b = true → fld v (2 * b) 2 ≠ 0 → u.fldOf (aSpPwr t) (2 * b) 2 = s.fldOf (aSpPwr t) (2 * b) 2) ∧
        ((s.bank (bankKey t b)).underWay = false → u.bankState t b = u.bankWanted t b)) ∧
    (∀ n, 1 ≤ n → n < 8 →
      let old := s.fldOf (aGclkSel n) 0 4
      ∃ u, exec (.gclkSelWrite .mgmt n v) s = .next u ∧ u.fldOf (aGclkSel n) 0 4 = fld v 0 4 ∧
        u.bitOf (aGclkSel n) 4 = (s.bitOf (aGclkSel n) 4 && !bit v 4) ∧
        (fld v 0 4 ≠ old → s.srcRuns old = false → n ∈ u.glue.switching) ∧
        (fld v 0 4 = old ∨ s.srcRuns old = true → u.glue = s.glue) ∧ ∀ a, a ≠ aGclkSel n → u.reg a = s.reg a) ∧
    exec (.gclkSelWrite .mgmt 0 v) s = .next s ∧
    (∀ k, k < 8 → dcoInRange v = true → ∃ u, exec (.dcoCfgWrite .mgmt k v) s = .next u ∧
      u.reg (aDcoCfg k) = (let w := v &&& bits 33 0; if bit v 0 && s.bitOf aMastStat 4 then putFld w 2 1 1 else w) ∧
      (s.fldOf (aDcoCfg k) 3 20 ≠ fld v 3 20 ∨ s.bitOf (aDcoCfg k) 0 ≠ bit v 0 →
        u.bitOf (aDcoStat k) 0 = false ∧ u.fldOf (aDcoStat k) 2 2 = 0) ∧
      ∀ a, a ≠ aDcoCfg k → a ≠ aDcoStat k → u.reg a = s.reg a) ∧
    (∀ k, k < 8 → dcoInRange v = false → exec (.dcoCfgWrite .mgmt k v) s =
      .next (s.nocErr (aDcoCfg k) stDenied (originCode .mgmt) (targetOf s.part 0 (aDcoCfg k)).1)) ∧
    (∀ n, n < 8 → exec (.gclkSelWrite .host n v) s =
      .next (s.nocErr (aGclkSel n) stDenied (originCode .host) (targetOf s.part 0 (aGclkSel n)).1)) ∧
    (∀ t o h sl hi, t < 64 → o < 13 → h < 2 → sl < 1024 → hi < 2 →
      s.responder (writeOf s.part .mgmt (aSlot t o h sl hi) (regBytes v)) = none → s.slotWritable (aSlot t o h sl hi) v = true →
      ∃ u, exec (.slotTableWrite .mgmt (aSlot t o h sl hi) v) s = .next u ∧
        u.reg (aSlot t o h sl hi) = (slotRow (hi = 1)).written (s.reg (aSlot t o h sl hi)) v ∧
        (∀ a, a ≠ aSlot t o h sl hi → u.reg a = s.reg a) ∧ u.mem = s.mem) ∧
    (∀ t o h sl hi, t < 64 → o < 13 → h < 2 → sl < 1024 → hi < 2 →
      s.responder (writeOf s.part .mgmt (aSlot t o h sl hi) (regBytes v)) = none → s.slotWritable (aSlot t o h sl hi) v = false →
      exec (.slotTableWrite .mgmt (aSlot t o h sl hi) v) s = .next (s.nocErr (aSlot t o h sl hi) stDenied (originCode .mgmt) t)) ∧
    (∀ a, 0x14_0000_0000 ≤ a → a < 0x14_0800_0000 → a % 8 = 0 → frameOk ((a - 0x14_0000_0000) / 128) = true →
      s.glueFenced ((a - 0x14_0000_0000) / 2 ^ 24) = true →
      ∃ u, exec (.frameWrite .mgmt a v) s = .next u ∧ u.word a = v ∧ (∀ b, b < a ∨ a + 8 ≤ b → u.byte b = s.byte b) ∧ u.regs = s.regs)

/-- The secure SRAM (R204): at each of its addresses, in every life-cycle state and with or without an unlock, a request of any
requester but the management cores is answered DENIED and touches nothing; the management cores read its bytes, poisoned where
its check bits find an uncorrectable error, and store into it. An address that names nothing is answered DECODE, and nothing is
touched (R207). -/
def Obligations.TargetsGuard : Prop :=
  ∀ (s : State) (o : Origin) (node : Nat) (write : Bool) (a n : Nat) (d : List Byte) (poison : Bool),
    (0x16_0000_0000 ≤ a → a < 0x16_0004_0000 → o ≠ .mgmt → s.access o node write a n d poison = (s, stDenied, [], false)) ∧
    (0x16_0000_0000 ≤ a → a + n ≤ 0x16_0004_0000 → a < 0x16_0004_0000 →
      s.access .mgmt node false a n d poison = (s, stOk, s.bytes a n, s.eccMax a n == 2) ∧
      s.access .mgmt node true a n d poison = (s.store a d poison, stOk, [], false)) ∧
    (placeOf s.part a = .nowhere → s.access o node write a n d poison = (s, stDecode, [], false))

/- Stacked DRAM. -/

/-- A request at the head of a filled channel's port (R185, R192, R194, R230): one that the ownership table, with the fences that stood
when it arrived, and its form allow takes the lowest free slot, and a WRB is granted there; any other leaves with its status;
where no slot is free it waits. -/
def Obligations.DramAdmits : Prop :=
  ∀ (s : State) (g : Nat) (p : PortReq) (rest : List PortReq), s.up → g < 64 → (s.chan g).port = p :: rest →
    let o := s.ownerOf p.req.addr
    let st := if reqFormed p.req then ownerStatus o (p.fences.testBit o) p.req.origin (p.req.op != .rd) else stMalformed
    ((s.chan g).zeroed = false → exec (.dramRequest g) s = .next s) ∧
    ((s.chan g).zeroed = true →
    (st ≠ stOk → exec (.dramRequest g) s = .next ((s.setChan g { s.chan g with port := rest }).answer p.req st [] false)) ∧
    (st = stOk → freeSlot (s.chan g).held = none → exec (.dramRequest g) s = .next s) ∧
    (∀ i, st = stOk → freeSlot (s.chan g).held = some i → p.req.op ≠ .wrb →
      exec (.dramRequest g) s = .next (s.setChan g { s.chan g with port := rest, held := (s.chan g).held ++
        [{ slot := i, req := p.req, data := p.req.data, poison := p.req.poison, awaitData := false, acks := [], inved := false }] })) ∧
    (∀ i, st = stOk → freeSlot (s.chan g).held = some i → p.req.op = .wrb →
      ∃ u, exec (.dramRequest g) s = .next (State.inject u p.req.dstNode 2 (.rsp (grantOf p.req))) ∧ (u.chan g).port = rest ∧
        (∃ x, (u.chan g).held = (s.chan g).held ++ [x] ∧ x.slot = i ∧ x.req = p.req ∧ x.awaitData = true ∧ x.acked = false) ∧
        u.mem = s.mem ∧ u.regs = s.regs))

/-- DRAM_TRANSACTION of the one transaction of a controller, which has its data (R184, R195, R202, R232). A write to a line that a
cache holds first sends INV to every holder and waits for as many acknowledgements. With none left, and no parity error, a read
returns the bytes, poisoned where a word is uncorrectable; a write of a whole word stores it, in a refresh too; a write of a part
of a word stores the part, and is not performed but answered as poisoned where the word is uncorrectable; each frees its slot and
changes no other byte. A command/address parity error is counted and repeats the command. -/
def Obligations.DramPerforms : Prop :=
  ∀ (s : State) (g : Nat) (x : Txn), s.up → g < 64 → (s.chan g).held = [x] → x.awaitData = false → x.acked = false →
    s.ketch.marking = false →
    let line := x.req.addr / 64
    (∀ e, x.inved = false → x.req.op ≠ .rd → (s.chan g).snoop = [e] → e.line = line → ∃ t, exec (.dramTransaction g x.slot) s = .next t ∧
      (t.chan g).held = [{ x with inved := true, acks := e.holders.map (128 * line + ·), inv := [line], way := false }] ∧
      t.noc.flights.length = s.noc.flights.length + e.holders.length ∧ (t.chan g).snoop = [e] ∧ t.mem = s.mem ∧ t.regs = s.regs) ∧
    (x.inved = true → x.acks ≠ [] → exec (.dramTransaction g x.slot) s = .next s) ∧
    (x.inved = true → x.acks = [] → (s.chan g).refreshing = false → 0 < (s.chan g).caErr → ∃ t,
      exec (.dramTransaction g x.slot) s = .next t ∧ (t.chan g).caErr = (s.chan g).caErr - 1 ∧ (t.chan g).held = [x] ∧
      t.fldOf (aDramEcc (channelTile g)) 32 16 = satAdd 16 (s.fldOf (aDramEcc (channelTile g)) 32 16) 1 ∧ t.mem = s.mem) ∧
    (x.inved = true → x.acks = [] → (s.chan g).caErr = 0 →
      (x.req.op = .rd → (s.chan g).refreshing = false → ∃ u, exec (.dramTransaction g x.slot) s = .next
          (State.answer u x.req stOk (s.bytes x.req.addr x.req.len) ((wordsOf 9 x.req.addr x.req.len).any fun w => s.eccOf w.1 == 2)) ∧
        (u.chan g).held = [] ∧ u.mem = s.mem) ∧
      (x.req.op ≠ .rd → x.req.addr % 8 = 0 → x.req.len = 8 → x.data.length = 8 → ∃ u, exec (.dramTransaction g x.slot) s = .next
          (State.answer u x.req stOk [] false) ∧ (u.chan g).held = [] ∧ u.bytes x.req.addr 8 = x.data ∧
        (∀ a, a < x.req.addr ∨ x.req.addr + 8 ≤ a → u.byte a = s.byte a) ∧ u.regs = s.regs) ∧
      (∀ n, x.req.op ≠ .rd → x.req.len = n → x.data.length = n → 1 ≤ n → n < 8 → x.req.addr % 8 + n ≤ 8 →
        (s.chan g).refreshing = false → ∃ u, exec (.dramTransaction g x.slot) s = .next
          (State.answer u x.req stOk [] (s.eccOf x.req.addr == 2)) ∧ (u.chan g).held = [] ∧
        (s.eccOf x.req.addr = 2 → u.mem = s.mem) ∧ (s.eccOf x.req.addr ≠ 2 → u.bytes x.req.addr n = x.data) ∧
        ∀ a, a < x.req.addr ∨ x.req.addr + n ≤ a → u.byte a = s.byte a))

/-- Refreshes (R198, R199): outside every grant an obligation is pending until begun, 8 at most; under a grant a channel that is not
refreshing begins it at once. One pending begins in an idle channel, and is forced at 8 outside grants, each counted in its own
field. A refresh ends; the next one that a grant has made due is then begun and counted in REF_GRANT, and with none the channel
is free. -/
def Obligations.RefreshRules : Prop :=
  ∀ (s : State) (g : Nat), s.up → g < 64 →
    let a := aDramRef (channelTile g)
    let counted := fun (u : State) (lo : Nat) => u.fldOf a lo 16 = satAdd 16 (s.fldOf a lo 16) 1 ∧
      (∀ b, b ≠ a → u.reg b = s.reg b) ∧ u.mem = s.mem
    (s.anyGrant = false → ∃ u, exec (.refreshDue g) s = .next u ∧ u.refPending g = min 8 (s.refPending g + 1) ∧ u.chans = s.chans ∧
      (∀ b, b ≠ a → u.reg b = s.reg b)) ∧
    (s.anyGrant = true → (s.chan g).refreshing = false → ∃ u, exec (.refreshDue g) s = .next u ∧ (u.chan g).refreshing = true ∧
      u.refPending g = min 8 (s.refPending g + 1) - 1 ∧ counted u 0) ∧
    ((s.chan g).held = [] → 0 < s.refPending g → (s.chan g).refreshing = false →
      ∃ u, exec (.idleRefresh g) s = .next u ∧ (u.chan g).refreshing = true ∧ u.refPending g = s.refPending g - 1 ∧ counted u 16) ∧
    ((s.chan g).held ≠ [] ∨ s.refPending g = 0 ∨ (s.chan g).refreshing = true → exec (.idleRefresh g) s = .next s) ∧
    (s.refPending g = 8 → s.anyGrant = false → (s.chan g).refreshing = false →
      ∃ u, exec (.forcedRefresh g) s = .next u ∧ (u.chan g).refreshing = true ∧ u.refPending g = 7 ∧ counted u 32) ∧
    (s.refPending g ≠ 8 ∨ s.anyGrant = true ∨ (s.chan g).refreshing = true → exec (.forcedRefresh g) s = .next s) ∧
    ((s.chan g).refreshing = true → (s.anyGrant = false ∧ (s.chan g).owed = 0) ∨ s.refPending g = 0 →
      ∃ u, exec (.refreshEnd g) s = .next u ∧ u.chan g = { s.chan g with refreshing := false } ∧ u.regs = s.regs ∧ u.mem = s.mem) ∧
    ((s.chan g).refreshing = true → 0 < (s.chan g).owed → 0 < s.refPending g →
      ∃ u, exec (.refreshEnd g) s = .next u ∧ (u.chan g).refreshing = true ∧ (u.chan g).owed = (s.chan g).owed - 1 ∧
        u.refPending g = s.refPending g - 1 ∧ counted u 0)

/-- Scrub, zero fill and temperature (R184, R185, R187, R198, R201): the words of a channel follow R187's map; a zero-filled
channel reads as zero without errors and begins to serve; HOT of a stack's 16 channels follows 85 °C. -/
def Obligations.DramUpkeep : Prop :=
  (∀ g i, g < 64 → i < 2 ^ 27 → dramChannel (channelWord g i) = g ∧ channelWord g i % 8 = 0 ∧ channelWord g i < 0x10_0000_0000) ∧
  (∀ (s : State) (g : Nat), s.up → g < 64 →
    ((s.chan g).held = [] → (s.chan g).zeroed = true → (s.chan g).refreshing = false →
      ∃ u, exec (.patrolScrub g) s = .next u ∧ (u.chan g).scrub = ((s.chan g).scrub + 1) % channelWords s.part ∧
        u.eccOf (channelWord g (s.chan g).scrub) ≠ 1 ∧ u.mem = s.mem) ∧
    ((s.chan g).zeroed = false → ∃ u, exec (.dramZeroFill g) s = .next u ∧ (u.chan g).zeroed = true ∧
      (∀ a, a < 0x10_0000_0000 → dramChannel a = g → u.byte a = 0 ∧ u.eccOf a = 0) ∧
      (∀ a, ¬ (a < 0x10_0000_0000 ∧ dramChannel a = g) → u.byte a = s.byte a) ∧ u.regs = s.regs)) ∧
  (∀ (s : State) (stack : Nat) (c : Int), s.up → stack < 4 → ∃ u, exec (.stackTemperatureRead stack c) s = .next u ∧
    (∀ i, i < 16 → u.bitOf (aDramRef (channelTile (16 * stack + i))) 52 = decide (85 < c)) ∧
    mapGet (fun _ => 0) u.stackTemps stack = c ∧ u.mem = s.mem)

/- Glue fabric, DCOs, BAR4 and GPIO. -/

/-- A masked write through a view changes exactly the bits of its bank whose mask bit is set and whose pin the writer owns in
that view; the bank's other halves, its other register of the two and memory stay (R265, R266). -/
def Obligations.MaskedWritesByOwner : Prop :=
  ∀ (s : State) (o : Origin) (secure : Bool) (bank : Nat) (v : W32), s.up → bank < 8 →
    (o = .mgmt ∨ o = .jtag ∨ (o = .host ∧ secure = false)) →
    (∃ t, exec (.outMlo o secure bank v) s = .next t ∧ (∀ j, j < 16 → t.bitOf (aOut bank) j =
        if v.getLsbD (16 + j) && ownerWrites (s.pinOwner (32 * bank + j)) o secure then v.getLsbD j else s.bitOf (aOut bank) j) ∧
      (∀ j, 16 ≤ j → j < 32 → t.bitOf (aOut bank) j = s.bitOf (aOut bank) j) ∧ t.reg (aOe bank) = s.reg (aOe bank) ∧ t.mem = s.mem) ∧
    (∃ t, exec (.outMhi o secure bank v) s = .next t ∧ (∀ j, j < 16 → t.bitOf (aOut bank) (16 + j) =
        if v.getLsbD (16 + j) && ownerWrites (s.pinOwner (32 * bank + 16 + j)) o secure then v.getLsbD j
        else s.bitOf (aOut bank) (16 + j)) ∧
      (∀ j, j < 16 → t.bitOf (aOut bank) j = s.bitOf (aOut bank) j) ∧ t.reg (aOe bank) = s.reg (aOe bank) ∧ t.mem = s.mem) ∧
    (∃ t, exec (.oeMlo o secure bank v) s = .next t ∧ (∀ j, j < 16 → t.bitOf (aOe bank) j =
        if v.getLsbD (16 + j) && ownerWrites (s.pinOwner (32 * bank + j)) o secure then v.getLsbD j else s.bitOf (aOe bank) j) ∧
      (∀ j, 16 ≤ j → j < 32 → t.bitOf (aOe bank) j = s.bitOf (aOe bank) j) ∧ t.reg (aOut bank) = s.reg (aOut bank) ∧ t.mem = s.mem) ∧
    (∃ t, exec (.oeMhi o secure bank v) s = .next t ∧ (∀ j, j < 16 → t.bitOf (aOe bank) (16 + j) =
        if v.getLsbD (16 + j) && ownerWrites (s.pinOwner (32 * bank + 16 + j)) o secure then v.getLsbD j
        else s.bitOf (aOe bank) (16 + j)) ∧
      (∀ j, j < 16 → t.bitOf (aOe bank) j = s.bitOf (aOe bank) j) ∧ t.reg (aOut bank) = s.reg (aOut bank) ∧ t.mem = s.mem)

/-- Pins (R267, R270, R271). A level outside is noted in any state of the part. The input path takes a steady pad level to IN in 2 + FILT
CLK_GLUE edges from at rest, and in none fewer; when the glitch filter of a pin expires, at least that time has passed, and with
no glue region running, no lane in raw mode and no pad waiting, IN shows the pad's level. A pin whose IN agrees with its pad
keeps it. A bank's supply is shown in its status; without supply IN of the bank reads 0 and no pad of it that is not held
drives. -/
def Obligations.PinsFollow : Prop :=
  ∀ (s : State) (p : Nat) (level : Bool), p < 256 →
    let n := s.fldOf (aPinCfg p) 16 8
    (∃ t, exec (.pinInput p level) s = .next t ∧ (t.pad p).level = level ∧ (t.pad p).out = (s.pad p).out ∧
      (t.pad p).oe = (s.pad p).oe ∧ (∀ q, q ≠ p → t.pad q = s.pad q) ∧ t.regs = s.regs ∧ t.mem = s.mem) ∧
    (s.bankOn p = true → (s.pad p).s1 = s.pinIn p → (s.pad p).s2 = s.pinIn p → (s.pad p).cnt = 0 →
      (s.forEach (List.range (2 + n)) fun u _ => u.inputEdge p).pinIn p = s.padLevel p ∧
      ∀ k, k < 2 + n → (s.forEach (List.range k) fun u _ => u.inputEdge p).pinIn p = s.pinIn p) ∧
    (s.up → s.padLevel p = s.pinIn p → exec (.glitchFilterExpiry p) s = .next s) ∧
    (s.up → s.padLevel p ≠ s.pinIn p → ∃ t, exec (.glitchFilterExpiry p) s = .next t ∧ s.tb + (2 + n) * s.glueTicks ≤ t.tb ∧
      (s.bankOn p = true → (∀ i, i < 8 → s.glueRuns i = false) → s.rawRx = [] → s.rawLanes = [] → s.clockedPins = [] →
        (∀ q, q < 256 → (s.pad q).pending = false) → t.pinIn p = s.padLevel p)) ∧
    (∀ v, v < 4 → ∃ t, exec (.bankSupplyChange (p / 32) v) s = .next t ∧ t.fldOf (aBankStat (p / 32)) 0 2 = v ∧
      (v = 0 → t.reg (aIn (p / 32)) = 0 ∧ (s.padHolds p = false → (t.pad p).oe = false)) ∧ t.mem = s.mem)

/-- Clock trees and DCOs (R247, R249 to R252). A switch that waits for a stopped source is completed and shown in SWITCH_FORCED; with none
waiting nothing changes. A window of an enabled DCO is in tolerance when its error, or under SPREAD_REF the mean of the latest 16
at most (log 102), is no more than TOL_PPM; its own error is shown in ERR_PPM. In tolerance RUN advances, and the fourth window
makes the DCO stable, which it stays; out of tolerance STABLE and RUN clear, and what was stable is counted and latched in
UNSTABLE. A DCO that is off, and a window without HREFCLK, changes nothing. -/
def Obligations.GlueClocks : Prop :=
  ∀ (s : State) (n : Nat) (err : Int), s.up → n < 8 →
    let st := aDcoStat n
    let l := if s.bitOf (aDcoCfg n) 2 then (err :: s.errs n).take 16 else [err]
    let ok := (l.foldl (· + ·) 0).natAbs ≤ s.fldOf (aDcoCfg n) 23 11 * l.length
    let judged := fun (t : State) => exec (.dcoWindow n err) s = .next t ∧
      t.fldOf st 4 16 = (BitVec.ofInt 16 (max (-32767) (min 32767 err))).toNat ∧
      t.fine n = max (-15000) (min 15000 (s.fine n - l.foldl (· + ·) 0 / (l.length : Int))) ∧ (∀ a, a ≠ st → t.reg a = s.reg a) ∧ t.mem = s.mem
    (s.glue.switching.contains n = true → s.srcRuns (s.fldOf (aGclkSel n) 0 4) = true →
      ∃ t, exec (.switchForced n) s = .next t ∧ t.bitOf (aGclkSel n) 4 = true ∧ t.glue.switching.contains n = false ∧
        t.fldOf (aGclkSel n) 0 4 = s.fldOf (aGclkSel n) 0 4 ∧ (∀ a, a ≠ aGclkSel n → t.reg a = s.reg a)) ∧
    (s.glue.switching.contains n = false → exec (.switchForced n) s = .next s) ∧
    (s.bitOf (aDcoCfg n) 0 = true → s.pwr.href = true →
      (ok → s.bitOf st 0 = true → ∃ t, judged t ∧ t.bitOf st 0 = true ∧ t.fldOf st 2 2 = s.fldOf st 2 2 ∧ t.fldOf st 20 16 = s.fldOf st 20 16) ∧
      (ok → s.bitOf st 0 = false → ∃ t, judged t ∧ t.fldOf st 20 16 = s.fldOf st 20 16 ∧
        (s.fldOf st 2 2 = 3 → t.bitOf st 0 = true ∧ t.fldOf st 2 2 = 0) ∧
        (s.fldOf st 2 2 ≠ 3 → t.bitOf st 0 = false ∧ t.fldOf st 2 2 = s.fldOf st 2 2 + 1)) ∧
      (¬ ok → ∃ t, judged t ∧ t.bitOf st 0 = false ∧ t.fldOf st 2 2 = 0 ∧
        (s.bitOf st 0 = true → t.bitOf st 1 = true ∧ t.fldOf st 20 16 = satAdd 16 (s.fldOf st 20 16) 1) ∧
        (s.bitOf st 0 = false → t.bitOf st 1 = s.bitOf st 1 ∧ t.fldOf st 20 16 = s.fldOf st 20 16))) ∧
    (s.bitOf (aDcoCfg n) 0 = false ∨ s.pwr.href = false → exec (.dcoWindow n err) s = .next s)

/-- BAR4 and the flash read port (R256, R261, R333). A request of 4 or 8 aligned bytes at a fenced region is refused at once, a read
with an error completion that is counted, a write in the host's error log; at a running region it waits at the port, behind
those before it. When its time is up the oldest waiting request of the region is refused in the same way, a packet-network
request with the answer DENIED; with none waiting nothing happens. The read port of a running G7 returns flash words of the user
partition and 0 elsewhere. -/
def Obligations.UserBus : Prop :=
  ∀ (s : State) (write : Bool) (off size : Nat) (value : W64), s.up → (size = 4 ∨ size = 8) → off % size = 0 → off < 0x100_0000 →
    let n := off / 0x20_0000
    let refused := fun (t : State) (w : Bool) (key : Nat) => t.mem = s.mem ∧
      (w = false → t.host.cpls = s.host.cpls ++ [{ bar := 4, key, status := 2, ep := false, data := [] }] ∧ t.host.aer = s.host.aer ∧
        t.fldOf aHpStat 24 16 = satAdd 16 (s.fldOf aHpStat 24 16) 1 ∧ ∀ a, a ≠ aHpStat → t.reg a = s.reg a) ∧
      (w = true → t.host.cpls = s.host.cpls ∧ t.host.aer = s.host.aer ++ [2] ∧ t.regs = s.regs)
    (s.glueFenced n = true → ∃ t, exec (.bar4Request write off size value) s = .next t ∧ refused t write off ∧ t.glue = s.glue) ∧
    (s.glueFenced n = false → ∃ t, exec (.bar4Request write off size value) s = .next t ∧
      t.glue.bar4 = s.glue.bar4 ++ [{ n := n, off, size, write, value }] ∧ t.host = s.host ∧ t.regs = s.regs ∧ t.mem = s.mem) ∧
    (∀ q pre post, s.glue.bar4 = pre ++ q :: post → q.n = n → (∀ y ∈ pre, y.n ≠ n) →
      (q.req = none → ∃ t, exec (.bar4Timeout n) s = .next t ∧ refused t q.write q.off ∧ t.glue.bar4 = pre ++ post) ∧
      (∀ r, q.req = some r → ∃ u, exec (.bar4Timeout n) s = .next (State.answer u r stDenied [] false) ∧ u.glue.bar4 = pre ++ post ∧
        u.host = s.host ∧ u.regs = s.regs ∧ u.mem = s.mem)) ∧
    ((∀ y ∈ s.glue.bar4, y.n ≠ n) → exec (.bar4Timeout n) s = .next s) ∧
    (s.glueRuns 7 = true → ∃ t, exec (.flashReadPort off) s = .next t ∧ t.regs = s.regs ∧ t.mem = s.mem ∧
      t.glue.flashOut = s.glue.flashOut ++ [if 0x30_0000 ≤ off ∧ off + 8 ≤ 0x40_0000 then s.word (0x17_0000_0000 + off) else 0]) ∧
    (s.glueRuns 7 = false → exec (.flashReadPort off) s = .next s)

/- Native lanes and Aelbel Link. -/

/-- Bring-up of a link named by its first lane (R312, R313, R315, R316, R323, R327, R328, R331). A poll that finds a receiver goes to
TRAIN, one that does not is a failure, the eighth in a row reported; trained lanes go to LOCK; lock with a skew of at most 32 sends
the capability blocks and shows the skew. A stage limit is a failure, after the third back in DETECT, or under NARROW goes on
with the width that the lanes through it form. A lane agrees on two equal valid capability blocks and keeps what it agreed on;
with every lane agreed the link is ACTIVE with the common classes, under NARROW at the width of the lanes it accepts, or else has
failed. ALIGN ends electrical idle of the receiver and shows its lane's skew; SKIP adjustments are counted. Block lock makes and
unmakes ACTIVE in the other modes; a window with few transitions freezes adaptation; a block of a raw lane, and of an Ethernet
lane descrambled and decoded, reaches the glue fabric. -/
def Obligations.LinksComeUp : Prop :=
  ∀ (s : State) (n : Nat), s.up → n < 144 →
    let a := aLnStat n
    let only := fun (t : State) => (∀ b, b ≠ a → t.reg b = s.reg b) ∧ t.mem = s.mem
    (s.lnState n = 1 →
      (∃ t, exec (.detectPoll n true) s = .next t ∧ t.lnState n = 2 ∧ (t.link n).found = true ∧ (t.link n).stageFails = 0 ∧ only t) ∧
      (s.fldOf a 8 4 ≠ 7 → ∃ t, exec (.detectPoll n false) s = .next t ∧ t.lnState n = 1 ∧ t.fldOf a 8 4 = min 8 (s.fldOf a 8 4 + 1) ∧
        t.links = s.links ∧ only t) ∧
      (s.fldOf a 8 4 = 7 → ∃ u, exec (.detectPoll n false) s = .next (State.linkEvent u n (if (s.link n).found then 0x51 else 0x50)) ∧
        u.lnState n = 1 ∧ u.fldOf a 8 4 = 8 ∧ u.bitOf a (if (s.link n).found then 13 else 12) = true ∧ only u)) ∧
    (∀ found, s.lnState n ≠ 1 → exec (.detectPoll n found) s = .next s) ∧
    (s.lnState n = 2 → ∃ t, exec (.trainComplete n) s = .next t ∧ t.lnState n = 3 ∧ t.links = s.links ∧ only t) ∧
    (s.lnState n ≠ 2 → exec (.trainComplete n) s = .next s) ∧
    (∀ r, s.aelbelAt n = some (n, r) →
      (∀ skew, s.lnState n = 3 → skew ≤ 32 → ∃ t, exec (.lockComplete n skew) s = .next t ∧
        t.lnState n = 4 ∧ t.fldOf (aLnMon n) 48 8 = skew ∧ (t.link n).caps = [] ∧ (t.link n).out = (s.link n).out ++
          ((List.range (s.link n).lanes).map fun i => .cap (r.first + i) (s.capBlock r (r.first + i))) ∧
        (∀ b, b ≠ a → b ≠ aLnMon n → t.reg b = s.reg b) ∧ t.mem = s.mem) ∧
      (∀ passed, 2 ≤ s.lnState n → s.lnState n ≤ 4 → (r.flags / 4 % 2 = 0 ∨ passed = 0 ∨ (s.link n).lanes ≤ passed) →
        ∃ t, exec (.stageTimeout n passed) s = .next t ∧ t.lnState n = (if 2 ≤ (s.link n).stageFails then 1 else 2) ∧
          (t.link n).stageFails = (s.link n).stageFails + 1 ∧ (t.link n).lanes = r.lanes ∧ only t) ∧
      (∀ passed, r.flags / 4 % 2 = 1 → 0 < passed → passed < (s.link n).lanes →
        (s.lnState n = 2 → ∃ t, exec (.stageTimeout n passed) s = .next t ∧ t.lnState n = 3 ∧
          t.link n = { s.link n with lanes := 2 ^ widthCode passed } ∧ only t) ∧
        (s.lnState n = 3 → ∃ t, exec (.stageTimeout n passed) s = .next t ∧ t.lnState n = 4 ∧
          (t.link n).lanes = 2 ^ widthCode passed ∧ (t.link n).out = (s.link n).out ++
            ((List.range (2 ^ widthCode passed)).map fun i => .cap (r.first + i) (s.capBlock r (r.first + i))) ∧ only t))) ∧
    (∀ (c : CapRx) b, c.agreed = true → (c.take b).agreed = true ∧ (c.take b).last = c.last) ∧
    (∀ r (lane : Nat) block, lane < 144 → s.aelbelAt lane = some (n, r) → s.lnState n = 4 → block.length = 8 → leNum block 0 1 = 0xC6 →
      leNum block 1 1 < 4 →
      let l := (s.link n).setCapRx (((s.link n).capRx lane).take block)
      let s1 := s.setLink n l
      let lanes := (List.range l.lanes).map fun i => r.first + i
      let cap := (l.capRx r.first).last
      let k := (lanes.takeWhile fun x => s1.capAccepts x r (l.capRx x).last).length
      let agreed := lanes.all fun x => (l.capRx x).agreed
      (agreed = false → exec (.cap lane block) s = .next s1) ∧
      (agreed = true → k = l.lanes ∨ (r.flags / 4 % 2 = 1 ∧ 0 < k) → ∃ u, exec (.cap lane block) s = .next (State.linkEvent u n 0) ∧
        u.lnState n = 5 ∧ (u.link n).lanes = (if k = l.lanes then k else 2 ^ widthCode k) ∧
        (u.link n).classesOn = r.classes &&& leNum cap 8 2 ∧ u.reg (aLnPartner n) = BitVec.ofNat 64 (leNum cap 10 8) ∧
        (u.link n).txSeq = 0 ∧ (u.link n).rxNext = 0 ∧ (u.link n).retry = [] ∧ u.mem = s.mem) ∧
      (agreed = true → k ≠ l.lanes → r.flags / 4 % 2 = 0 ∨ k = 0 → ∃ t, exec (.cap lane block) s = .next t ∧
        t.lnState n = (if 2 ≤ (s.link n).stageFails then 1 else 2) ∧ (t.link n).stageFails = (s.link n).stageFails + 1 ∧ only t)) ∧
    (∀ (lane : Nat) r b, lane < 144 → s.aelbelAt lane = some (n, r) → leNum b 0 1 = 0xC3 → ∃ t, exec (.alignBlock lane b) s = .next t ∧
      t.fldOf a 6 2 = (if s.fldOf a 6 2 = 1 then 0 else s.fldOf a 6 2) ∧ t.mem = s.mem ∧
      ∀ f, lane ≠ r.first → (s.link n).aligns.find? (fun x => x.1 == r.first) = some f → f.2.1 = leNum b 2 2 →
        t.fldOf (aLnMon lane) 48 8 = min 255 (s.skewOf r.rate s.tb f.2.2)) ∧
    (∀ ins del, ∃ t, exec (.skip n ins del) s = .next t ∧ t.fldOf (aLnMon n) 32 16 =
      satAdd 16 (s.fldOf (aLnMon n) 32 16) (b2n ins + b2n del) ∧ (∀ b, b ≠ aLnMon n → t.reg b = s.reg b) ∧ t.mem = s.mem) ∧
    (∀ (lane : Nat) r, lane < 144 → s.linkAt lane = some n → (s.link n).conf = some r → 2 ≤ r.mode →
      (s.lnState n = 3 → ∃ u, exec (.pcsBlockLock lane true) s = .next (State.linkEvent u n 0) ∧ u.lnState n = 5 ∧ only u) ∧
      (s.lnState n = 5 → ∃ u, exec (.pcsBlockLock lane false) s = .next (State.linkEvent u n 7) ∧ u.lnState n = 3 ∧
        u.fldOf (aLnCnt n) 48 16 = satAdd 16 (s.fldOf (aLnCnt n) 48 16) 1 ∧ u.mem = s.mem)) ∧
    (∀ (lane k : Nat) r, lane < 144 → s.linkAt lane = some n → (s.link n).conf = some r → s.lnState n = 5 →
      let low := decide (k * 100 < (if r.densMin = 0 then 30 else r.densMin) * 67584)
      (low = true → s.bitOf (aLnStat lane) 14 = false → ∃ t, exec (.adaptationFreeze lane k) s = .next t ∧
        t.bitOf (aLnStat lane) 14 = true ∧ t.fldOf (aLnMon lane) 16 16 = satAdd 16 (s.fldOf (aLnMon lane) 16 16) 1 ∧ t.mem = s.mem) ∧
      (low = true → s.bitOf (aLnStat lane) 14 = true → exec (.adaptationFreeze lane k) s = .next s) ∧
      (low = false → ∃ t, exec (.adaptationFreeze lane k) s = .next t ∧ t.bitOf (aLnStat lane) 14 = false ∧
        (∀ b, b ≠ aLnStat lane → t.reg b = s.reg b) ∧ t.mem = s.mem)) ∧
    (∀ (sync : Nat) v r, (s.link n).conf = some r → s.lnState n = 5 → sync < 4 →
      (r.mode = 4 → ∃ t, exec (.rawBlockReceive n sync v) s = .next t ∧ t.rawRx = s.rawRx ++ [(n, sync, v)] ∧
        t.regs = (if sync = 1 ∨ sync = 2 then s.regs else (s.count (aLnMon n) 0 16).regs) ∧ t.links = s.links ∧ t.mem = s.mem) ∧
      (r.mode = 2 ∨ r.mode = 3 → sync = 1 ∨ sync = 2 → (s.link n).hiBer = false → (s.link n).berBad < 16 →
        ∃ t, exec (.rawBlockReceive n sync v) s = .next t ∧ t.rawRx = s.rawRx ++
            [(n, pcsDecode sync (BitVec.ofNat 64 (descramble 64 (s.link n).scrRx v.toNat).2))] ∧
          (t.link n).scrRx = (descramble 64 (s.link n).scrRx v.toNat).1 ∧ t.regs = s.regs ∧ t.mem = s.mem))

/-- Frames of a link in ACTIVE whose transmit direction is at full power and in no retrain (R311, R317 to R321). An acknowledgement releases the frames up
to the one it names; an IDLE block with a bad CRC-8 is counted. A frame with errors is counted and asks for a replay once; the
expected frame advances the number, and is acknowledged in an IDLE block where the link has nothing to send; an earlier frame is
acknowledged again without effect; a later one asks for a replay once. A replay sends every outstanding frame again, the fourth
without progress begins a short retrain, the eighth takes the link down. A frame that is sent carries its number, the
acknowledgement, its content and its CRC, and is kept. A window of 1 ms with more errors than ERR_LIMIT begins a short retrain. -/
def Obligations.FramesExchanged : Prop :=
  ∀ (s : State) (n : Nat), s.up → n < 144 → s.lnState n = 5 → s.fldOf (aLnStat n) 4 2 = 0 → (s.link n).txHeld = false →
    let l := s.link n
    let same := fun (t : State) => t.regs = s.regs ∧ t.mem = s.mem
    let ask := if l.nakSent then [] else [LinkOut.ack (seqBefore l.rxNext) true]
    (∀ b pre post seq f, b.length = 8 → leNum b 0 1 = 0xC0 → leNum b 7 1 = crc8 (bitsOfBytes (b.take 7)) → leNum b 3 2 = seq →
      seq < 4096 → l.retry = pre ++ (seq, f) :: post → (∀ g ∈ pre, g.1 ≠ seq) →
      ∃ t, exec (.idle n b) s = .next t ∧ t.link n = { l with retry := post, replays := 0 } ∧ same t) ∧
    (∀ b, leNum b 0 1 = 0xC0 → leNum b 7 1 ≠ crc8 (bitsOfBytes (b.take 7)) → ∃ t, exec (.idle n b) s = .next t ∧
      t.fldOf (aLnMon n) 0 16 = satAdd 16 (s.fldOf (aLnMon n) 0 16) 1 ∧ t.links = s.links ∧ t.mem = s.mem) ∧
    (∀ f, (f.length ≠ 256 ∨ leNum f 0 1 ≠ 0xCA ∨ leNum f 252 4 ≠ crc32 (f.take 252)) → ∃ t, exec (.aelbelFrame n f) s = .next t ∧
      t.fldOf (aLnCnt n) 0 16 = satAdd 16 (s.fldOf (aLnCnt n) 0 16) 1 ∧ (t.link n).crcBad = l.crcBad + 1 ∧
      (t.link n).rxNext = l.rxNext ∧ (t.link n).nakSent = true ∧ (t.link n).out = l.out ++ ask ∧ (t.link n).inbox = l.inbox ∧ t.mem = s.mem) ∧
    (∀ f, f.length = 256 → leNum f 0 1 = 0xCA → leNum f 252 4 = crc32 (f.take 252) → leNum f 3 2 < 4096 →
      l.retry.all (fun g => g.1 != leNum f 3 2) = true →
      let behind := (l.rxNext + 4095 - leNum f 1 2 % 4096) % 4096
      (leNum f 1 2 % 4096 = l.rxNext → leNum f 8 1 % 16 = 0 → l.txq = [] → ∃ t, exec (.aelbelFrame n f) s = .next t ∧
        (t.link n).rxNext = (l.rxNext + 1) % 4096 ∧ (t.link n).nakSent = false ∧
        (t.link n).freed = (l.takeCredit (leNum f 5 1) (leNum f 6 2)).freed ∧
        (t.link n).out = l.out ++ [.ack (seqBefore ((l.rxNext + 1) % 4096)) false] ∧ (t.link n).retry = l.retry ∧ same t) ∧
      (leNum f 1 2 % 4096 ≠ l.rxNext → behind < 2048 → ∃ t, exec (.aelbelFrame n f) s = .next t ∧
        (t.link n).out = l.out ++ [.ack (seqBefore l.rxNext) false] ∧ (t.link n).rxNext = l.rxNext ∧ (t.link n).inbox = l.inbox ∧ same t) ∧
      (leNum f 1 2 % 4096 ≠ l.rxNext → 2048 ≤ behind → ∃ t, exec (.aelbelFrame n f) s = .next t ∧
        (t.link n).out = l.out ++ ask ∧ (t.link n).nakSent = true ∧ (t.link n).rxNext = l.rxNext ∧ same t)) ∧
    (l.retry ≠ [] →
      let again := fun (t : State) => t.fldOf (aLnCnt n) 16 16 = satAdd 16 (s.fldOf (aLnCnt n) 16 16) 1 ∧ t.mem = s.mem
      (l.replays + 1 < 4 → ∃ t, exec (.replayTimeout n) s = .next t ∧ again t ∧ (t.link n).replays = l.replays + 1 ∧
        (t.link n).out = l.out ++ (l.retry.map fun f => .frame f.2) ∧ (t.link n).retry = l.retry ∧ t.lnState n = 5) ∧
      (l.replays + 1 = 4 → ∃ t, exec (.replayTimeout n) s = .next t ∧ again t ∧ t.lnState n = 5 ∧ t.bitOf (aLnStat n) 3 = true ∧
        (t.link n).txHeld = true ∧ (t.link n).out = l.out ++ (l.retry.map fun f => .frame f.2) ++ List.replicate 4 (.control 0xCD)) ∧
      (8 ≤ l.replays + 1 → ∃ t, exec (.replayTimeout n) s = .next t ∧ t.lnState n = 1 ∧ (t.link n).retry = [] ∧ t.mem = s.mem)) ∧
    (l.retry = [] → exec (.replayTimeout n) s = .next s) ∧
    (∀ e, l.retry.length < 16 * l.lanes → l.txSeq < 4096 → l.txq = [e] → l.nextEntry [] = some e → e.bytes.length ≤ 244 →
      ∃ t f, exec (.frameTransmit n) s = .next t ∧ f.length = 256 ∧ leNum f 0 1 = 0xCA ∧ leNum f 1 2 = l.txSeq ∧
        leNum f 3 2 = seqBefore l.rxNext ∧ leNum f 252 4 = crc32 (f.take 252) ∧ sub f 8 e.bytes.length = e.bytes ∧
        (t.link n).txq = [] ∧ (t.link n).retry = l.retry ++ [(l.txSeq, f)] ∧ (t.link n).out = l.out ++ [.frame f] ∧
        (t.link n).txSeq = (l.txSeq + 1) % 4096 ∧ same t) ∧
    (16 * l.lanes ≤ l.retry.length ∨ l.txq = [] → exec (.frameTransmit n) s = .next s) ∧
    (∀ r, l.conf = some r →
      (l.crcBad ≤ r.errLimit → ∃ t, exec (.crcErrorWindow n) s = .next t ∧ t.link n = { l with crcBad := 0 } ∧ same t) ∧
      (r.errLimit < l.crcBad → ∃ t, exec (.crcErrorWindow n) s = .next t ∧ (t.link n).crcBad = 0 ∧ t.bitOf (aLnStat n) 3 = true ∧
        (t.link n).txHeld = true ∧ t.fldOf (aLnCnt n) 32 16 = satAdd 16 (s.fldOf (aLnCnt n) 32 16) 1 ∧
        (t.link n).out = l.out ++ List.replicate 4 (.control 0xCD) ∧ t.mem = s.mem))

/-- Retrains, loss of lock and low power of a link in ACTIVE (R317, R324, R325, R327). A short retrain shows RETRAINING, is counted, holds the frames
and sends its control blocks; its end sends the outstanding frames again, its failure takes the link to DETECT without them. A
short loss of lock begins one, a longer one takes the link down, and one of another mode back to LOCK. Where both ends allow it
and no retrain holds it, the transmit direction goes to electrical idle or sleep; a ready entry ends the idle by a training
burst and ALIGN, and a sleep by a retrain of that direction alone; a sleeping receiver is woken by a retrain that holds no
frame. -/
def Obligations.LinkStatesChange : Prop :=
  ∀ (s : State) (n : Nat), s.up → n < 144 → s.lnState n = 5 →
    let l := s.link n
    let a := aLnStat n
    let counts := fun (t : State) => t.bitOf a 3 = true ∧ t.fldOf (aLnCnt n) 32 16 = satAdd 16 (s.fldOf (aLnCnt n) 32 16) 1 ∧
      t.lnState n = 5 ∧ (t.link n).retry = l.retry ∧ t.mem = s.mem
    let retrains := fun (o : Host.Outcome State Fault Refusal) => ∃ t, o = .next t ∧ counts t ∧ (t.link n).txHeld = true ∧
      (t.link n).out = l.out ++ List.replicate 4 (.control 0xCD)
    let down := fun (o : Host.Outcome State Fault Refusal) => ∃ t, o = .next t ∧ t.lnState n = 1 ∧ t.bitOf a 3 = false ∧ (t.link n).retry = [] ∧
      (t.link n).forwarded = [] ∧ (t.link n).txHeld = false ∧ t.fldOf (aLnCnt n) 48 16 = satAdd 16 (s.fldOf (aLnCnt n) 48 16) 1 ∧ t.mem = s.mem
    let ready := (l.nextEntry []).isSome
    (s.bitOf a 3 = false ∨ l.txHeld = false → retrains (exec (.retrain n) s)) ∧
    (s.bitOf a 3 = true → l.txHeld = true → exec (.retrain n) s = .next s) ∧
    (∀ (lane : Nat) r, lane < 144 → s.linkAt lane = some n → l.conf = some r →
      (r.mode = 1 → s.bitOf a 3 = false ∨ l.txHeld = false → retrains (exec (.lockLoss lane false) s)) ∧
      (r.mode = 1 → down (exec (.lockLoss lane true) s)) ∧
      (∀ long, r.mode ≠ 1 → ∃ u, exec (.lockLoss lane long) s = .next (State.linkEvent u n 7) ∧ u.lnState n = 3 ∧
        u.fldOf (aLnCnt n) 48 16 = satAdd 16 (s.fldOf (aLnCnt n) 48 16) 1 ∧ u.links = s.links ∧ u.mem = s.mem)) ∧
    (s.bitOf a 3 = true →
      (∃ t, exec (.retrainComplete n true) s = .next t ∧ t.bitOf a 3 = false ∧ t.lnState n = 5 ∧ (t.link n).txHeld = false ∧
        (t.link n).out = l.out ++ (if l.txHeld then l.retry.map fun f => .frame f.2 else []) ∧ (t.link n).retry = l.retry ∧
        (∀ b, b ≠ a → t.reg b = s.reg b) ∧ t.mem = s.mem) ∧
      down (exec (.retrainComplete n false) s)) ∧
    (s.bitOf a 3 = false → ∀ ok, exec (.retrainComplete n ok) s = .next s) ∧
    (∀ r, l.conf = some r → l.txHeld = false →
      let rests := fun (o : Host.Outcome State Fault Refusal) (power code : Nat) => ∃ t, o = .next t ∧ t.fldOf a 4 2 = power ∧
        (t.link n).out = l.out ++ List.replicate 4 (.control code) ∧ (t.link n).retry = l.retry ∧ (∀ b, b ≠ a → t.reg b = s.reg b) ∧ t.mem = s.mem
      (r.flags % 2 = 1 → l.partnerPower % 2 = 1 → s.fldOf a 4 2 = 0 → rests (exec (.eidle n) s) 1 0xCC) ∧
      (r.flags / 2 % 2 = 1 → l.partnerPower / 2 % 2 = 1 → s.fldOf a 4 2 < 2 → rests (exec (.sleep n) s) 2 0xCF) ∧
      ((r.flags % 2 = 0 ∨ l.partnerPower % 2 = 0) → exec (.eidle n) s = .next s) ∧
      ((r.flags / 2 % 2 = 0 ∨ l.partnerPower / 2 % 2 = 0) → exec (.sleep n) s = .next s)) ∧
    (l.txHeld = true → exec (.eidle n) s = .next s ∧ exec (.sleep n) s = .next s) ∧
    (s.fldOf a 4 2 = 1 → ready = true → ∃ t, exec (.eidleExit n) s = .next t ∧ t.fldOf a 4 2 = 0 ∧
      (t.link n).out = l.out ++ [.burst, .control 0xC3] ∧ (t.link n).txq = l.txq ∧ (∀ b, b ≠ a → t.reg b = s.reg b) ∧ t.mem = s.mem) ∧
    (s.fldOf a 4 2 ≠ 1 ∨ ready = false → exec (.eidleExit n) s = .next s) ∧
    (s.fldOf a 6 2 = 2 → ∃ t, exec (.sleepWake n) s = .next t ∧ counts t ∧ t.fldOf a 6 2 = 0 ∧ (t.link n).txHeld = l.txHeld ∧
      (t.link n).out = l.out) ∧
    (s.fldOf a 6 2 ≠ 2 → s.fldOf a 4 2 = 2 → ready = true → ∃ t, exec (.sleepWake n) s = .next t ∧ counts t ∧ t.fldOf a 4 2 = 0 ∧
      (t.link n).txHeld = true ∧ (t.link n).out = l.out) ∧
    (s.fldOf a 6 2 ≠ 2 → s.fldOf a 4 2 ≠ 2 ∨ ready = false → exec (.sleepWake n) s = .next s)

/- Fences, release, boot and the management complex. -/

/-- Drains and releases (R111, R234, R235, R293, R296, R300). A region without rigging work of its own drains: nothing stays
parked, SHROUD_DRAINED sets. REQ_IDLE sets once no request of the region is out and TGT_IDLE once its endpoints owe no answer,
each by itself; with both DRAINED sets and the stream caches are empty. With both drains the region is FENCED_DONE, and FENCED
unless FAULTED. A fence that is late sets LATE, of the regions that its command waits for, which completes with FENCE_TIMEOUT,
else of those no command waits for. The lead ticks of a release go out no earlier than 40 ticks before its edge; at the edge it
is no longer waiting, its glue regions run, and a release by START makes the device RUNNING. A released emulation region runs
without a fence, and its period 0 begins at the edge. -/
def Obligations.RegionsDrainAndRelease : Prop :=
  ∀ (s : State), s.up →
    (∀ m, m < 16 → s.bitOf (aNocFence m) 0 = true → s.bitOf (aCfgRgn m) 4 = false → (s.rgn m).released = true → s.rigBusy m = false →
      exec (.riggingDrainComplete m) s = .next ((s.rigDrained m).finishFence m) ∧ (s.rigDrained m).fldOf (aCfgRgn m) 4 2 = 3 ∧
      ∀ t, t ∈ tilesOf m → ((s.rigDrained m).sw t).parked = []) ∧
    (∀ m, m < 16 → s.bitOf (aNocFence m) 0 = true → s.bitOf (aNocFence m) 1 = false →
      let only := fun (t : State) => (∀ a, a ≠ aNocFence m → t.reg a = s.reg a) ∧ t.mem = s.mem ∧ t.arrs = s.arrs
      (s.reqBusy m = false → s.tgtBusy m = true → s.bitOf (aNocFence m) 3 = false → ∃ t, exec (.packetDrainComplete m) s = .next t ∧
        t.bitOf (aNocFence m) 2 = true ∧ t.bitOf (aNocFence m) 3 = false ∧ t.bitOf (aNocFence m) 1 = false ∧ only t) ∧
      (s.reqBusy m = true → s.tgtBusy m = false → s.bitOf (aNocFence m) 2 = false → ∃ t, exec (.packetDrainComplete m) s = .next t ∧
        t.bitOf (aNocFence m) 3 = true ∧ t.bitOf (aNocFence m) 2 = false ∧ t.bitOf (aNocFence m) 1 = false ∧ only t) ∧
      (s.reqBusy m = false → s.tgtBusy m = false → ∃ u : State, exec (.packetDrainComplete m) s = .next (u.finishFence m) ∧
        u.fldOf (aNocFence m) 1 3 = 7 ∧ (∀ t, t ∈ tilesOf m → (u.arr t).cache = []) ∧
        (∀ a, a ≠ aNocFence m → u.reg a = s.reg a) ∧ u.mem = s.mem)) ∧
    (∀ m, m < 16 → s.fldOf (aNocFence m) 0 2 = 3 → s.bitOf (aCfgRgn m) 4 = true → s.bitOf (aCfgRgn m) 6 = false →
      (s.rgn m).released = true → s.mci.cmds = [] → s.ketch.resync = none →
      (s.finishFence m).bitOf (aCfgRgn m) 6 = true ∧ (s.finishFence m).rgnState m = (if s.rgnState m = 5 then 5 else 3) ∧
      (s.pwr.firmware = false → (s.finishFence m).mem = s.mem)) ∧
    (let late := fun (l : List Nat) (t : State) => (∀ m, m < 16 → t.bitOf (aNocFence m) 4 =
        (s.bitOf (aNocFence m) 4 || (l.contains m && s.bitOf (aNocFence m) 0 && !s.bitOf (aNocFence m) 1))) ∧
        (∀ a, (∀ m, m < 16 → a ≠ aNocFence m) → t.reg a = s.reg a) ∧ t.mem = s.mem
     (∀ c mask, s.mci.cmds = [c] → c.task = .fence mask → s.pwr.firmware = true → ∃ u, late (masked mask) u ∧
        exec (.fenceTimeout c.chan) s = .next (State.complete u c cFenceTimeout [])) ∧
     (∀ ch, s.mci.cmds = [] → ∃ t, exec (.fenceTimeout ch) s = .next t ∧ late (List.range 16) t)) ∧
    (∀ r, s.engine.releases = [r] → r.leadSent = false → ∃ t, exec .leadTicks s = .next t ∧
      t.engine.releases = [{ r with leadSent := true }] ∧ r.at_ - 40 ≤ t.tb) ∧
    (∀ (resume : Bool) r rest, takeFirst (fun (r : Release) => r.leadSent && r.resume == resume) s.engine.releases = some (r, rest) →
      ∃ t, exec (if resume then .resumeEdge else .startEdge) s = .next t ∧ r ∉ t.engine.releases ∧
        (∀ n, n ∈ r.gs → n < 8 → t.rgnState (16 + n) = 2) ∧ (resume = false → t.devState = 2 ∧ t.glue.live = true)) ∧
    (∀ at_ ms m j, m < 16 → let u := s.releaseRegion at_ ms m j
      (u.rgn m).released = true ∧ (u.rgn m).s0 = at_ ∧ (u.rgn m).ticked = 0 ∧ u.rgnState m = 2 ∧ u.bitOf (aNocFence m) 0 = false ∧
      (u.br m).outCount = 0 ∧ u.mem = s.mem ∧
      ((∀ tc ∈ (s.rgn m).usage.clusters, tc.1 < 64 ∧ tc.2 < 128) → u.joinEcy m = j.getD 0 % 2 ^ 48))

/-- Boot from flash and the firmware's life (R32, R129, R282, R326, R374, R400, R426). The boot takes the primary slot, else the golden
one with the fallback flag, else reports, and under AUTOSTART a lone master then starts. A flash load that was asked for
answers with the status of its checks. The chosen firmware begins once the Mast is locked and the wipe over, restoring what the repair map keeps. A lockstep
mismatch stops the firmware and raises MGMT_LOCKSTEP with no tile and no cluster; while it stands no command completes. The
restart ends a command under way with INTERNAL, and one that asked for the restart with the version that runs. The end of a
lane test puts its link back and answers with 16 bytes for each lane. -/
def Obligations.BootAndFirmware : Prop :=
  ∀ (s : State), s.up →
    (let s0 : State := { s with engine := { s.engine with booted := true } }
     s.pwr.firmware = true → s.engine.booted = false → leNum s.bootRecord 6 1 = 1 → s.devState = 0 → s.staging = false →
      let r := s0.bootSlot 0
      let g := r.1.bootSlot 1
      let flag := g.1.setBit aCfgStatus 7 true
      let q := if r.2 = cOk then r.1 else if g.2 = cOk then flag else flag.bootFailed (bytesOfNat 2 r.2 ++ bytesOfNat 2 g.2 ++ [0])
      let auto := (r.2 = cOk ∨ g.2 = cOk) ∧ q.bootFlag 0 = true ∧ q.isMaster = true ∧ q.pos = 0 ∧ q.bitOf aCascStat 5 = false
      (¬ auto → exec .flashBoot s = .next q) ∧ (auto → exec .flashBoot s = .next (q.startDevice none))) ∧
    (∀ slot, s.pwr.firmware = true → s.engine.flash = some slot →
      let r := ({ s with engine := { s.engine with flash := none } } : State).loadSlot slot
      exec .flashLoadComplete s = .next (r.1.completeAll (fun c => c.task == .flash) r.2)) ∧
    (∀ i fell, s.pwr.firmware = false → s.pwr.started = false → s.pwr.wiped = true → s.locked = true → s.chosenSlot = some (i, fell) →
      s.mci.cmds = [] → ∃ t, exec .firmwareStart s = .next t ∧ t.pwr.firmware = true ∧ t.pwr.started = true ∧ t.sec.active = i ∧
        t.sec.fallback = fell ∧ t.sec.pendingSlot = none ∧ s.sec.minSvn ≤ t.sec.minSvn ∧ t.mci = s.mci ∧
        (s.health.remaps = [] → s.sec.tamperRec = none → s.sec.bootFail = none →
          (∀ e, s.health.kept = [e] → t.reg e.1 = e.2) ∧ ∀ a, (∀ v, (a, v) ∉ s.health.kept) → t.reg a = s.reg a)) ∧
    (s.pwr.firmware = true → ∃ t f, exec .lockstepMismatch s = .next t ∧ t.pwr.firmware = false ∧ t.raised = s.raised ++ [f] ∧
      f.code = 8 ∧ f.region = 0xFF ∧ f.tile = 0xFF ∧ f.cluster = 0xFFFF ∧ f.internal = true ∧ f.time = s.tb ∧ t.mci = s.mci ∧
      t.regs = s.regs ∧ t.mem = s.mem) ∧
    (s.pwr.firmware = false → ∀ c st result, s.complete c st result = s) ∧
    (∀ i fell, s.pwr.firmware = false → s.pwr.started = true → s.chosenSlot = some (i, fell) →
      let u := (s.runFirmware i fell).engineLetsGo
      (s.mci.cmds = [] → exec .firmwareRestart s = .next u) ∧
      (∀ c, s.mci.cmds = [c] → c.chan < 16 → c.task ≠ .held → c.task ≠ .heldPtr → c.task ≠ .fwRestart →
        ∃ t, exec .firmwareRestart s = .next t ∧ t.pwr.firmware = true ∧ t.mci.cmds = [] ∧ t.num (chanBase c.chan + 6) 2 = cInternal ∧
          t.num (chanBase c.chan + 12) 4 = 0 ∧ t.bitOf aDbBusy c.chan = false ∧ t.bitOf aDbDone c.chan = true ∧
          ∀ x ∈ t.noc.tags, ∀ ch, x.use ≠ .engine ch) ∧
      (∀ c, s.mci.cmds = [c] → c.task = .fwRestart → exec .firmwareRestart s = .next
        ((u.complete c cOk (bytesOfNat 4 u.sec.fwVersion)).event 0x12 0xFF
          (bytesOfNat 4 u.sec.fwVersion ++ bytesOfNat 4 u.sec.fwSvn ++ [if fell then 1 else 0])))) ∧
    (∀ n w c, s.pwr.firmware = true → (s.link n).test = some w → s.lnState n = 6 → s.mci.cmds = [c] → c.task = .laneTest n →
      ∃ t result, exec (.laneTestEnd n) s = .next (State.complete t c cOk result) ∧ result.length = 16 * w.lanes.length ∧
        (t.link n).test = none ∧ t.mem = s.mem ∧
        t.lnState n = (match (s.link n).conf with | some r => if r.mode = 1 then 1 else 3 | none => 0))

/- Host port. -/

/-- The host port's link and configuration space, and its reads of host memory (R332 to R335, R398). A link that is up shows
its speed and width; a reset of the port ends what it has under way. MSI-X enabled signals the vectors held; bus mastering and the completion
timeout take the values written, the timeout within its range only. A read of host memory answers its requester with the data,
or UNREACHABLE after the timeout; one that fetches a payload lets its command run with it, or ends it with TIMEOUT. -/
def Obligations.HostPortActs : Prop :=
  ∀ (s : State), s.up →
    (∀ speed width, 1 ≤ speed → speed ≤ 5 → (width = 1 ∨ width = 4 ∨ width = 8) →
      ∃ t, exec (.hostLinkUp speed width) s = .next t ∧ t.fldOf aHpStat 0 3 = speed ∧ t.fldOf aHpStat 3 4 = width ∧
        t.bitOf aHpStat 7 = true ∧ (∀ a, a ≠ aHpStat → t.reg a = s.reg a) ∧ t.mem = s.mem ∧ t.host = s.host) ∧
    (∀ cause, ∃ t, exec (.hotReset cause) s = .next t ∧ t.host.bar2 = [] ∧ t.host.reads = [] ∧ t.host.msixOn = false ∧
      t.host.busMaster = false ∧ t.host.cplTimeoutUs = 50000 ∧ t.bitOf aHpStat 7 = false) ∧
    (∃ t, exec (.hostConfigWrite (.msixEnable true)) s = .next t ∧ t.host.msixOn = true ∧
      t.events.msix = s.events.msix ++ s.events.msixHeld ∧ t.events.msixHeld = [] ∧ t.events.queue = s.events.queue ∧
      t.regs = s.regs ∧ t.mem = s.mem) ∧
    (∃ t, exec (.hostConfigWrite (.msixEnable false)) s = .next t ∧ t.host.msixOn = false ∧ t.events = s.events ∧
      t.regs = s.regs ∧ t.mem = s.mem) ∧
    (∀ on, ∃ t, exec (.hostConfigWrite (.busMaster on)) s = .next t ∧ t.host.busMaster = on ∧ t.host.msixOn = s.host.msixOn ∧
      t.host.reads = s.host.reads ∧ t.regs = s.regs ∧ t.mem = s.mem) ∧
    (∀ us, ∃ t, exec (.hostConfigWrite (.cplTimeoutUs us)) s = .next t ∧
      t.host.cplTimeoutUs = (if 1000 ≤ us ∧ us ≤ 4000000 then us else s.host.cplTimeoutUs) ∧ t.regs = s.regs ∧ t.mem = s.mem) ∧
    (∀ r, s.host.reads = [r] →
      let s1 : State := { s with host := { s.host with reads := [] } }
      (∀ q, r.req = some q → exec (.completionTimeout r.tag) s = .next ((s1.count aHpStat 8 16).answer q stUnreachable [] false)) ∧
      (∀ q data, r.req = some q → exec (.hostCompletion r.tag data) s = .next (s1.answer q stOk (padTo q.len data) false)) ∧
      (∀ c, r.req = none → s.pwr.firmware = true → s.mci.cmds = [c] → c.chan = r.chan → c.chan < 16 → c.task = .payload →
        (∃ t, exec (.completionTimeout r.tag) s = .next t ∧ t.mci.cmds = [] ∧ t.num (chanBase c.chan + 6) 2 = cTimeout ∧
          t.bitOf aDbBusy c.chan = false ∧ t.bitOf aDbDone c.chan = true ∧
          t.fldOf aHpStat 8 16 = satAdd 16 (s.fldOf aHpStat 8 16) 1) ∧
        (∀ data, let d : MciCmd := { c with
            desc := { c.desc with payload := padTo (s.num (chanBase c.chan + 8) 4) data }, task := .held }
          exec (.hostCompletion r.tag data) s = .next
            (({ s1 with mci := { s.mci with cmds := [d] } } : State).runCmd d))))

/- Cascades and Ketch pairs. -/

/-- CSYNC frames and the master's part (R340 to R342, R348, R349): a frame of the master passes every check at a device; an
addressed device aligns, or answers with its readiness and keeps the action; a frame with errors is counted and answered
BAD_PARAM; acknowledgements gather, one that refuses or is missing fails the action; a COMMIT in time holds it, and the
action is performed at its edge. -/
def Obligations.CsyncActs : Prop :=
  (∀ cmd mask member seq at_, cmd < 8 → mask < 2 ^ 16 → member < 4 → seq < 256 → at_ < 2 ^ 40 → at_ % 4 = 0 →
    let f := frMake cmd mask member seq at_
    frShaped f = true ∧ frGood f = true ∧ frCmd f = cmd ∧ frMask f = mask ∧ frMember f = member ∧ frSeq f = seq ∧ frAt f = at_) ∧
  (∀ (s : State), s.up →
    (∀ f, frShaped f = true → frGood f = true → s.addressed f = true → frCmd f = 1 → s.devState ≠ 2 →
      exec (.csyncAlign f) s = .next ((({ s with refcnt := frAt f, tb := frAt f * s.refTicks } : State).setBit aCascStat 5 true).setFld
        aCascStat 40 8 (frSeq f))) ∧
    (∀ f cmd (i : BitVec 80 → Instr), (cmd = 2 ∧ i = Instr.csyncStart ∨ cmd = 3 ∧ i = Instr.csyncJoinPrep ∨
        cmd = 4 ∧ i = Instr.csyncRelease ∨ cmd = 5 ∧ i = Instr.csyncStop ∨ cmd = 6 ∧ i = Instr.csyncFreeze) →
      frShaped f = true → s.addressed f = true → frCmd f = cmd →
      (frGood f = true → s.csyncReady cmd = cOk → exec (i f) s = .next (({ s with casc := { s.casc with
        action := some { cmd, seq := frSeq f, at_ := frAt f, committed := false, join := none } } } : State).mgmtSend (.ack (frSeq f) cOk))) ∧
      (frGood f = true → s.csyncReady cmd ≠ cOk → exec (i f) s = .next (s.mgmtSend (.ack (frSeq f) (s.csyncReady cmd)))) ∧
      (frGood f = false → exec (i f) s = .next ((s.count aCascStat 48 8).mgmtSend (.ack (frSeq f) cBadParam)))) ∧
    (∀ i pos, s.casc.issue = some i → pos ∈ i.need → pos ∉ i.acks →
      let j : CsyncIssue := { i with acks := pos :: i.acks }
      let s1 : State := { s with casc := { s.casc with issue := some j } }
      ((j.full = false ∨ s.edgesTo i.at_ < 10000) → exec (.csyncAck pos i.seq cOk) s = .next s1) ∧
      (j.full = true → 10000 ≤ s.edgesTo i.at_ →
        exec (.csyncAck pos i.seq cOk) s = .next (s1.forEach i.need fun s p => s.mgmtSend (.commit p i.seq i.join))) ∧
      (∀ st, st ≠ cOk → s.ketch.resync = none → exec (.csyncAck pos i.seq st) s = .next (s.csyncFail i st))) ∧
    (∀ i, s.casc.issue = some i → i.full = false → exec .csyncAckDeadline s = .next (s.csyncFail i cAbsent)) ∧
    (∀ a join, s.casc.action = some a → a.committed = false →
      ((s.refcnt + 2 ^ 40 - a.at_) % 2 ^ 40 < 2 ^ 39 → exec (.csyncCommit a.seq join) s = .next
        (({ s with casc := { s.casc with action := none } } : State).mgmtSend (.csyncMiss a.seq))) ∧
      (2 ^ 39 ≤ (s.refcnt + 2 ^ 40 - a.at_) % 2 ^ 40 →
        let s1 : State := { s with casc := { s.casc with action := some { a with
          committed := true, join := if s.casc.paused.isEmpty then none else some join } } }
        (a.cmd ≠ 2 → a.cmd ≠ 4 → exec (.csyncCommit a.seq join) s = .next s1) ∧
        (a.cmd = 2 → ∃ r, exec (.csyncCommit a.seq join) s = .next (s1.arrange r) ∧ r.at_ = s.tickOf a.at_ ∧ r.resume = false ∧
          r.es = s.configuredEs ∧ r.gs = s.configuredGs))) ∧
    (∀ a, s.casc.action = some a → a.committed = true →
      let s1 := s.passTo (s.tickOf a.at_)
      let s2 := ({ s1 with casc := { s1.casc with action := none } } : State).setFld aCascStat 40 8 a.seq
      s1.casc.issue = none →
      (a.cmd = 5 → exec .csyncAction s = .next ({ s2 with casc := { s2.casc with ready := [] } } : State).stopDevice) ∧
      (a.cmd = 3 → exec .csyncAction s = .next (({ s2 with casc := { s2.casc with paused := s2.waitingEs } } : State).mgmtSend
        (.joinCount (s2.largestCount s2.waitingEs))))))

/-- Forming a cascade, its messages and losses (R130, R283, R343 to R346, R349, R350). A lost position is excluded without a
route and reported. Another device's fault makes the regions of its scope FAULTED, at the master, which queues the record and sends it
on, and at a follower; which regions the scope has is free (log 96). Status of a broadcast keeps the positions that are ready. A
Halyard entry in its place is staged; one that brings resync data writes the memory, register or unit it names. With the last count the
master releases at an even ecycle no smaller than any. A discovery message about another position sets its route, measures the
link one hop away and is sent on; one about this device makes it a follower with its member. -/
def Obligations.CascadesForm : Prop :=
  ∀ (s : State), s.up →
    (∀ pos, s.isMaster = true → s.bitOf aCascStat 5 = true → pos < 16 → pos ≠ s.pos → s.present.testBit pos = true → s.mci.cmds = [] →
      ∃ t, exec (.positionLost pos) s = .next (State.event t 0xB 0xFF (bytesOfNat 1 pos)) ∧ t.present.testBit pos = false ∧
        t.bitOf aCascStat (22 + pos) = true ∧ t.reg (aCascRoute pos) = 0 ∧ pos ∉ t.casc.ready ∧ t.mem = s.mem ∧
        ∀ a, a ≠ aCascStat → a ≠ aCascRoute pos → t.reg a = s.reg a) ∧
    (∀ record : List Byte, record.length = 32 → ∃ t : State,
      exec (.cascadeFaultMessage record) s = .next (if s.isMaster then
        (t.event 1 (leNum record 2 1) record).mgmtSend (.haltScope record) else t) ∧
      (∀ m n, m < 16 → n < 16 → s.inScope record m = true → n ∈ s.group m → s.rgnState n ≠ 0 → t.rgnState n = 5) ∧
      (∀ n, n < 16 → (∀ m, m < 16 → n ∈ s.group m → s.inScope record m = false) → t.rgnState n = s.rgnState n) ∧
      (∀ a, (∀ n, n < 16 → a ≠ aCfgRgn n) → t.reg a = s.reg a) ∧ t.mem = s.mem) ∧
    (∀ (record : List Byte) m, leNum record 0 2 = 8 → s.inScope record m = false) ∧
    (∀ pos st, s.isMaster = true → pos < 32 → ∃ t, exec (.halyardStatusReport pos st) s = .next t ∧
      (pos ∈ t.casc.ready ↔ st = cOk) ∧ (∀ p, p ≠ pos → (p ∈ t.casc.ready ↔ p ∈ s.casc.ready)) ∧ t.regs = s.regs ∧ t.mem = s.mem) ∧
    (∀ g offset data, s.isMaster = false → s.role = 0 → s.engine.staging = some g → g.source = 4 → offset = g.got → 0 < g.got →
      0 < data.length → data.length ≤ 232 → 64 ≤ g.total → g.total ≤ stageArea → g.got + data.length < g.total →
      ∃ t, exec (.halyardEntry offset data) s = .next t ∧ t.engine.staging = some { g with got := offset + data.length } ∧
        t.mem = (s.directDram (s.stageBase + offset) data).mem) ∧
    (∀ offset data, s.isMaster = false → s.role = 0 → s.staging = true → offset = 0 → 0 < data.length → data.length ≤ 232 →
      ∃ t, exec (.halyardEntry offset data) s = .next t ∧ t.casc.outbox = s.casc.outbox ++ [.halyardStatus cBusy] ∧
        t.engine = s.engine ∧ t.mem = s.mem) ∧
    (∀ offset data, s.role = 5 →
      (data.length ≤ 232 → offset < 0x14_0000_0000 → ∃ t, exec (.halyardEntry offset data) s = .next t ∧
        t.bytes offset data.length = data ∧ (∀ b, b < offset ∨ offset + data.length ≤ b → t.byte b = s.byte b) ∧ t.regs = s.regs) ∧
      (data.length ≤ 232 → 2 ^ 48 ≤ offset → ∃ t, exec (.halyardEntry offset data) s = .next t ∧ t.regs = s.regs ∧ t.mem = s.mem ∧
        match Config.resyncUnit offset data with
        | .clu k u => t.clu k = u ∧ ∀ i, i ≠ k → t.clu i = s.clu i
        | .sw k u => t.sw k = u ∧ ∀ i, i ≠ k → t.sw i = s.sw i
        | .arr k u => t.arr k = u ∧ ∀ i, i ≠ k → t.arr i = s.arr i
        | .br k u => t.br k = u ∧ ∀ i, i ≠ k → t.br i = s.br i
        | .rgn m cev s0 => (t.rgn m).cev = cev ∧ (t.rgn m).s0 = s0 ∧ ∀ i, i ≠ m → t.rgn i = s.rgn i) ∧
      (data.length = 8 → 0x14_0000_0000 ≤ offset → offset < 2 ^ 48 → ∃ t, exec (.halyardEntry offset data) s = .next t ∧
        t.reg offset = BitVec.ofNat 64 (leNum data 0 8) ∧ (∀ a, a ≠ offset → t.reg a = s.reg a) ∧ t.mem = s.mem)) ∧
    (∀ i pos n, s.casc.issue = some i → i.cmd = 3 → pos ∈ i.need →
      let l := (s.casc.joinCounts.filter fun e => e.1 != pos) ++ [(pos, n)]
      let s1 : State := { s with casc := { s.casc with joinCounts := l } }
      (i.need.all (fun p => l.any fun e => e.1 == p) = false → exec (.joinCountReport pos n) s = .next s1) ∧
      (i.need.all (fun p => l.any fun e => e.1 == p) = true → ∃ j, exec (.joinCountReport pos n) s =
          .next (s1.sendFrame 4 s1.present i.regions i.chan (some j)) ∧ j % 2 = 0 ∧ n ≤ j ∧ ∀ e ∈ s.casc.joinCounts, e.1 ≠ pos → e.2 ≤ j)) ∧
    (∀ d, s.casc.form = none → s.isMaster = false → d.pos < 16 →
      (d.pos ≠ s.pos → ∃ t, exec (.discoveryMessage d) s = .next t ∧ t.casc.outbox = s.casc.outbox ++ [.discovery d] ∧
        t.reg (aCascRoute d.pos) = BitVec.ofNat 64 (1 + 2 * (d.lane % 256) + 512 * (d.hops % 16)) ∧ t.mem = s.mem ∧
        (d.hops = 1 → s.carriesRig d.lane = true →
          t.reg (aRigXlat (quadTile (d.lane / 4))) = BitVec.ofNat 64 (d.xlat % 4096 + 4096)) ∧
        ∀ a, a ≠ aCascRoute d.pos → (d.hops = 1 → s.carriesRig d.lane = true → a ≠ aRigXlat (quadTile (d.lane / 4))) →
          t.reg a = s.reg a) ∧
      (d.pos = s.pos → d.member < 4 → ∃ t, exec (.discoveryMessage d) s = .next t ∧ t.member = d.member ∧ t.fldOf aMastStat 2 2 = 0 ∧
        t.reg (aCascRoute 0) = BitVec.ofNat 64 (1 + 2 * (d.lane % 256) + 512 * (d.hops % 16)) ∧ t.mem = s.mem ∧
        (s.carriesRig d.lane = true → t.reg (aRigXlat (quadTile (d.lane / 4))) = BitVec.ofNat 64 (d.xlat % 4096 + 4096)))) ∧
    (∀ f, s.casc.form = some f → exec .cascadeFormTimeout s = .next (s.formDone f) ∧ (s.formDone f).casc.form = none)

/-- Ketch pairs (R354 to R358): a completed interval is sent and waits for the twin's record; the outcome of a comparison;
a notice of the twin; silence; a role passed to the master. -/
def Obligations.KetchPairsCompare : Prop :=
  (∀ (s : State) (own twin : List Byte),
    (own.drop 8 = twin.drop 8 → s.compareRecords own twin = s.count aKetchStat 16 32) ∧
    (own.drop 12 ≠ twin.drop 12 → s.role = 2 → s.ketch.twinOut = false → (s.compareRecords own twin).role = 3) ∧
    (own.drop 8 ≠ twin.drop 8 → own.drop 12 = twin.drop 12 → s.ketch.twinOut = false →
      (recFlags own % 2 = 1 → recFlags twin % 2 = 0 → s.role = 1 ∨ s.role = 2 → (s.compareRecords own twin).role = 3) ∧
      (recFlags own % 2 = 0 → recFlags twin % 2 = 1 → s.role = 2 → (s.compareRecords own twin).role = 1) ∧
      (recFlags own % 2 = recFlags twin % 2 → s.role = 1 ∨ s.role = 2 → (s.compareRecords own twin).role = 4 ∧
        ∀ n, n ∈ s.group (recRegion own) → s.rgnState n ≠ 0 → (s.compareRecords own twin).rgnState n = 5))) ∧
  (∀ (s : State), s.up →
    (∀ m, m < 16 → s.comparing m = true → s.ketch.suspended = false → s.ecyclesDone m ((s.rgn m).cmpBase + s.ketchK) = true →
      (s.rgn m).cmpTwin = [] → ∃ t own, exec (.compareRecordSend m) s = .next (State.linkMsg t s.ketchLane 1 own) ∧ own.length = 16 ∧
        recRegion own = m ∧ recBase own = (s.rgn m).cmpBase % 2 ^ 48 ∧ (t.rgn m).cmpOwn = (s.rgn m).cmpOwn ++ [own] ∧
        (t.rgn m).cmpBase = (s.rgn m).cmpBase + s.ketchK ∧ t.regs = s.regs ∧ t.mem = s.mem) ∧
    (∀ r : List Byte, r.length = 16 → s.role = 1 ∨ s.role = 2 → recRegion r < 16 → recFlags r / 4 % 2 = 0 →
      s.ketch.suspended = false → (s.rgn (recRegion r)).cmpOwn = [] → ∃ t, exec (.compareRecord r) s = .next t ∧
        (t.rgn (recRegion r)).cmpTwin = (s.rgn (recRegion r)).cmpTwin ++ [r] ∧ t.bitOf aKetchStat 4 = true ∧ t.role = s.role ∧
        t.mem = s.mem) ∧
    (∀ r : List Byte, r.length = 16 → s.ketch.suspended = false →
      (s.role = 1 ∨ s.role = 2 → ∃ t, exec (.faultNotice r) s = .next t ∧ t.ketch.twinOut = true ∧ t.role = 1 ∧ t.mem = s.mem)) ∧
    (s.role = 1 ∨ s.role = 2 → s.ketch.suspended = false → ∃ t, exec .ketchTimeout s = .next t ∧ t.ketch.suspended = true ∧
      t.bitOf aKetchStat 4 = false ∧ t.role = 1 ∧ t.mem = s.mem) ∧
    (∀ r, s.isMaster = true → r < 6 → ∃ t, exec (.ketchRoleMessage r) s = .next t ∧ t.role = r ∧
      (s.role ≠ r → t.bitOf aKetchStat 3 = decide (r = 1)) ∧ t.mem = s.mem))

/- Reset, supplies, the firmware's services. -/

/-- Each cause of device reset (R11, R262, R363, R375, R376, R389, R429) holds the part in reset with its bit of RESET_CAUSE; embedded
flash and the VDD_AON registers keep what they hold, every other memory byte and register takes its reset value but CASC_STAT,
which shows the straps; the clocks take the default dividers of the speed grade, the packet network and the links begin anew.
After a loss of HREFCLK no pad is driven, whatever the TAP holds, until the release point. -/
def Obligations.ResetsHold : Prop :=
  ∀ (s : State),
    let held := fun (i : Nat) (o : Host.Outcome State Fault Refusal) => ∃ t, o = .next t ∧ t.pwr.inReset = true ∧
      t.pwr.firmware = false ∧ t.bitOf aResetCause i = true ∧ t.pending = s.pending ∧ t.noc = {} ∧ t.links = [] ∧
      t.clk.row = clockRow s.part.speed15 0 ∧ t.clk.fwLevel = 0 ∧
      (∀ a, inFlash a = true → t.byte a = s.byte a) ∧ (∀ a, inFlash a = false → t.byte a = memDefault s.part a) ∧
      (∀ a, regDomain a ≠ .aon → a ≠ aCascStat → t.reg a = regReset a) ∧
      (i ≠ 2 → i ≠ 5 → t.reg aTamperStat = s.reg aTamperStat)
    (∀ id low, held 0 (exec (.porstN id low) s)) ∧ held 1 (exec .perstN s) ∧
    (∀ rail, rail < 10 → s.pwr.rails / 2 ^ rail % 2 = 1 → held 2 (exec (.railLoss rail) s) ∧
      ∃ t, exec (.railLoss rail) s = .next t ∧ t.fldOf aResetCause 6 4 = rail ∧ t.pwr.rails = s.pwr.rails - 2 ^ rail ∧
        (rail ≠ 9 → t.reg aTamperStat = s.reg aTamperStat)) ∧
    (s.pwr.href = true → held 3 (exec .hrefclkLoss s) ∧
      ∃ t, exec .hrefclkLoss s = .next t ∧ t.padsLatched = true ∧ ∀ p, (t.pad p).oe = false) ∧
    (s.padsLatched = true → ∀ p, ((s.drivePad p).pad p).oe = false ∧ ((s.drivePad p).pad p).pull = (s.pad p).pull) ∧
    (s.locked = true → held 4 (exec .mastLockLoss s)) ∧
    (∀ src, s.watched src = true → held 5 (exec (.tamperTrip src) s) ∧
      ∃ t, exec (.tamperTrip src) s = .next t ∧ t.reg aTamperStat = tamperWord (s.reg aTamperStat) src)

/-- Supplies, release and start-up (R205, R362, R363, R371, R373, R374, R430): a good rail is noted while HREFCLK runs, and
VDD_AON's rise gives its registers their reset values; with every rail good and HREFCLK present the part is released and the
pads' latch lets go; the Mast's lock switches every clock to it at the dividers of the speed grade, with LOCK and the reference
clock's spread shown; the wipe leaves every word of the secure SRAM 0 with good check bits. -/
def Obligations.PartStarts : Prop :=
  ∀ (s : State),
    (∀ rail, rail < 10 → s.pwr.href = true → ∃ t, exec (.railGood rail) s = .next t ∧ t.pwr.rails = s.pwr.rails ||| 2 ^ rail ∧
      t.mem = s.mem ∧ (rail ≠ 9 → t.regs = s.regs) ∧
      (rail = 9 → s.pwr.rails / 512 % 2 = 0 → t.reg aResetCause = 0 ∧ t.reg aTamperStat = 0)) ∧
    (∃ t, exec .hrefclkPresent s = .next t ∧ t.pwr.href = true ∧ t.pwr.rails = s.pwr.rails ∧ t.regs = s.regs ∧ t.mem = s.mem) ∧
    (s.pwr.inReset = true → s.pwr.rails = 1023 → s.pwr.href = true → ∃ t, exec .resetRelease s = .next t ∧
      t.pwr.inReset = false ∧ t.pwr.padsReleased = true ∧ t.mem = s.mem) ∧
    (s.pwr.inReset = true → s.pwr.rails ≠ 1023 ∨ s.pwr.href = false → exec .resetRelease s = .next s) ∧
    (s.up → s.pwr.href = true → ∃ t, exec .mastLock s = .next t ∧ t.locked = true ∧ t.fldOf aMastStat 0 2 = 1 ∧
      t.bitOf aMastStat 4 = s.bootFlag 1 ∧ t.clk.row = clockRow s.part.speed15 s.level ∧
      (∀ a, a ≠ aMastStat → t.reg a = s.reg a) ∧ t.mem = s.mem) ∧
    (s.up → ∃ t, exec .secureSramWipe s = .next t ∧ t.pwr.wiped = true ∧ t.regs = s.regs ∧
      (∀ a, 0x16_0000_0000 ≤ a → a < 0x16_0004_0000 → t.byte a = 0 ∧ t.eccOf a = 0) ∧
      (∀ a, a < 0x16_0000_0000 ∨ 0x16_0004_0000 ≤ a → t.byte a = s.byte a))

/-- Services of the firmware (R118, R130, R131, R378, R379, R384 to R387): the oldest fault is contained, its scope FAULTED
and its record queued; a running region's risen counters are reported; a unit that passes its test is no longer suspect, one
that fails is lost; samples and measurements reach their registers. -/
def Obligations.FirmwareServes : Prop :=
  ∀ (s : State), s.up → s.pwr.firmware = true →
    (∀ f rest, s.raised = f :: rest → f.code ≠ 8 → f.internal = false → s.bitOf aCascStat 5 = false →
      ∃ t, exec .faultContainment s = .next (State.faultEvent t f.region (faultRecord f (2 * b2n (s.rgnState f.region != 0) +
          4 * b2n ((s.group f.region).any fun n => n != f.region && s.rgnState n != 0)))) ∧ t.raised = rest ∧
        (∀ n, n ∈ s.group f.region → s.rgnState n ≠ 0 → t.rgnState n = 5) ∧ t.mem = s.mem) ∧
    (∀ f rest, s.raised = f :: rest → f.code = 8 → s.role = 0 → exec .faultContainment s =
      .next (({ s with raised := rest } : State).faultEvent 0xFF (faultRecord f 1))) ∧
    (∀ m, m < 16 → s.rgnState m = 2 → (∀ n, n < 16 → n ≠ m → s.rgnState n ≠ 2) → ∃ t, exec .defectSample s = .next t ∧
      (t.rgn m).lastCeLate = s.fldOf (aRgnCnt m) 32 16 ∧ t.regs = s.regs ∧ t.mem = s.mem ∧
      ((s.rgn m).lastCeLate < s.fldOf (aRgnCnt m) 32 16 → t.events.seq = (s.events.seq + 1) % 2 ^ 32)) ∧
    (∀ u, s.testable u = true → (match u with | .cluster _ c => decide (c < 128) | _ => true) = true →
      ((unitRanges u).any fun x => s.defects.any fun a => decide (x.1 ≤ a ∧ a < x.1 + x.2)) = false →
      exec (.bistPass u) s = .next ({ s with health := { s.health with suspects := s.health.suspects.filter (· != u) } })) ∧
    (∀ t b, s.testable (.bank t b) = true → s.health.lost.contains (.bank t b) = false →
      ((unitRanges (.bank t b)).any fun x => s.defects.any fun a => decide (x.1 ≤ a ∧ a < x.1 + x.2)) = true →
      ∃ u, exec (.bistPass (.bank t b)) s = .next u ∧ u.health.lost = s.health.lost ++ [.bank t b] ∧
        u.health.mapSeq = s.health.mapSeq + 1 ∧ u.regs = s.regs ∧ u.mem = s.mem) ∧
    (∀ t ppm, t < 64 → ∃ u, exec (.agingMeasure t ppm) s = .next u ∧ u.fldOf (aTileAge t) 0 16 = min ppm 65535 ∧
      u.bitOf (aTileAge t) 32 = (s.bitOf (aTileAge t) 32 || decide (40000 < min ppm 65535)) ∧
      u.bitOf (aTileAge t) 33 = (s.bitOf (aTileAge t) 33 || decide (60000 < min ppm 65535)) ∧ u.mem = s.mem ∧
      ∀ a, a ≠ aTileAge t → a ≠ aPwrEst → u.reg a = s.reg a) ∧
    (∃ t, exec .dcoRetrim s = .next t ∧ t.regs = s.regs ∧ t.mem = s.mem ∧ ∀ k, k < 8 →
      (s.retrims k = false → t.fine k = s.fine k ∧ t.coarse k = s.coarse k) ∧
      (s.retrims k = true → t.coarse k = s.coarse k + (if s.fine k < 0 then -1 else 1) ∧
        t.fine k = max (-15000) (min 15000 (s.fine k - (if s.fine k < 0 then -1 else 1) * Config.coarseStep k)))) ∧
    (∀ dw, ∃ t, exec (.powerEstimate dw) s = .next t ∧ t.fldOf aPwrEst 0 16 = min dw 65535 ∧
      t.fldOf aPwrEst 16 16 = max (min dw 65535) (s.fldOf aPwrEst 16 16) ∧ t.fldOf aPwrEst 32 16 = s.fldOf aPwrEst 32 16 ∧
      t.clk.pwrSum = s.clk.pwrSum + min dw 65535 ∧ t.mem = s.mem ∧ ∀ a, a ≠ aPwrEst → t.reg a = s.reg a) ∧
    (∀ t temp vmin, t < 64 → temp < 4096 → vmin < 4096 → ∃ u, exec (.sensorSample t temp vmin) s = .next u ∧
      u.fldOf (aTileSens t) 0 12 = temp ∧ u.fldOf (aTileSens t) 12 12 = max temp (s.fldOf (aTileSens t) 12 12) ∧
      u.fldOf (aTileSens t) 24 12 = vmin ∧ u = s.setReg (aTileSens t) (u.reg (aTileSens t)))

/-- Reefing, yards and power states (R363, R365, R368, R369, R377, R381, R382): the level that an evaluation leaves; a tile at
105 °C and its end; the dividers follow the level; close and open requests and their results; a transition ends. -/
def Obligations.PowerPolicies : Prop :=
  ∀ (s : State), s.up →
    (s.pwr.firmware = true → s.clk.fwLevel ≤ 4 →
      let l := s.clk.fwLevel
      let cap := 10 * s.fldOf aReefCfg 16 10
      let p := if s.clk.pwrCount = 0 then s.fldOf aPwrEst 0 16 else s.clk.pwrSum / s.clk.pwrCount
      let met := tempCode (s.fldOf aReefCfg 0 8) ≤ s.hottest ∨ cap < p
      let low := s.hottest ≤ tempCode ((s.fldOf aReefCfg 0 8 : Int) - (s.fldOf aReefCfg 8 4 : Int)) ∧ 100 * p ≤ 95 * cap
      ∃ t, exec .reefEvaluation s = .next t ∧ t.fldOf aReefStat 3 3 = s.effMax ∧ t.fldOf aReefStat 6 3 = s.rtSafe ∧
        t.level = (if s.bitOf aReefStat 9 then max t.clk.fwLevel 2 else t.clk.fwLevel) ∧
        (s.effMax < l → t.clk.fwLevel = s.effMax) ∧
        (l ≤ s.effMax → met → t.clk.fwLevel = min (l + 1) s.effMax) ∧
        (l ≤ s.effMax → ¬ met → low → s.clk.releaseMs < 10 → t.clk.fwLevel = l ∧ t.clk.releaseMs = s.clk.releaseMs + 1) ∧
        (l ≤ s.effMax → ¬ met → low → 10 ≤ s.clk.releaseMs → t.clk.fwLevel = l - 1 ∧ t.clk.releaseMs = 1) ∧
        (l ≤ s.effMax → ¬ met → ¬ low → t.clk.fwLevel = l ∧ t.clk.releaseMs = 0) ∧ t.mem = s.mem) ∧
    (s.clk.fwLevel ≤ 4 →
      (s.bitOf aReefStat 9 = false → tempCode 105 ≤ s.hottest → ∃ t, exec .emergencyReef s = .next t ∧ t.bitOf aReefStat 9 = true ∧
        t.level = max s.clk.fwLevel 2 ∧ t.clk.fwLevel = s.clk.fwLevel ∧ t.mem = s.mem) ∧
      (s.bitOf aReefStat 9 = true → s.hottest < tempCode 100 → ∃ t, exec .emergencyReef s = .next t ∧ t.bitOf aReefStat 9 = false ∧
        t.level = s.clk.fwLevel ∧ t.mem = s.mem)) ∧
    (∀ l, s.clk.switchTo = some l → ∃ t, exec .reefingLevelSwitch s = .next t ∧ t.clk.row = clockRow s.part.speed15 l ∧
      t.clk.switchTo = none ∧ t.clk.opened = s.clk.opened ∧ t.regs = s.regs ∧ t.mem = s.mem) ∧
    (∀ y, y < 4096 →
      (s.closeResult y = 1 → ∃ t, exec (.yardClose y) s = .next t ∧ t.clocked y = false ∧ t.fldOf aYardResult 0 12 = y ∧
        t.fldOf aYardResult 12 3 = 1 ∧ (∀ z, z ≠ y → t.clocked z = s.clocked z) ∧ t.mem = s.mem) ∧
      (s.closeResult y ≠ 1 → ∃ t, exec (.yardClose y) s = .next t ∧ t.clk = s.clk ∧ t.fldOf aYardResult 12 3 = s.closeResult y ∧
        t.fldOf aYardResult 16 32 = satAdd 32 (s.fldOf aYardResult 16 32) 1 ∧ t.mem = s.mem) ∧
      (yardExists y = true → ∃ t, exec (.yardOpen y) s = .next t ∧ (∀ z, z ∈ yardChain y → t.clocked z = true) ∧
        (∀ z, s.clocked z = true → t.clocked z = true) ∧ t.fldOf aYardResult 12 3 = 1 ∧ t.mem = s.mem) ∧
      (yardExists y = false → ∃ t, exec (.yardOpen y) s = .next t ∧ t.clk = s.clk ∧ t.fldOf aYardResult 12 3 = 4)) ∧
    (∀ m, m < 16 → s.bitOf (aTilePwr (homeTile m)) 3 = true → (s.rgn m).pwrTarget ≤ 2 →
      ∃ u, exec (.powerTransitionDone m) s = .next (State.settle u) ∧
        ∀ t, t ∈ tilesOf m → u.fldOf (aTilePwr t) 0 2 = (s.rgn m).pwrTarget ∧ u.bitOf (aTilePwr t) 3 = false)

/- TAP, debug, trace. -/

/-- TAP instructions (R376, R431 to R435): the register they select and capture; those that drive pins act as BYPASS unless the
TAP is open for pins, else give every powered pad its cell, but drive none while the pads are latched; a debug access out of scope is not performed; the end of an unlock
closes the TAP and frees the pins of DEBUG. -/
def Obligations.TapInstructions : Prop :=
  ∀ (s : State),
    exec .tapReset s = exec .idcode s ∧
    (∃ t, exec .idcode s = .next t ∧ t.tap.ir = 1 ∧ t.tap.dr = s.part.stepping * 2 ^ 28 + 0x0964_074D ∧ t.tap.drBits = 32 ∧
      t.regs = s.regs ∧ t.mem = s.mem) ∧
    (∃ t, exec (.samplePreload none) s = .next t ∧ t.tap.ir = 2 ∧ t.regs = s.regs ∧ t.mem = s.mem ∧
      t.tap.bsr = (List.range 256).map fun p => (p, s.padLevel p, (s.pad p).oe)) ∧
    (∀ cells, ∃ t, exec (.samplePreload (some cells)) s = .next t ∧ t.tap.ir = 2 ∧ t.tap.bsr = cells ∧ t.regs = s.regs ∧ t.mem = s.mem) ∧
    (∀ code i, (code = 3 ∧ i = Instr.extest ∨ code = 4 ∧ i = Instr.extestPulse ∨ code = 5 ∧ i = Instr.extestTrain ∨
        code = 6 ∧ i = Instr.clamp ∨ code = 7 ∧ i = Instr.highz) →
      (s.pinsOpen = true → ∃ t, exec i s = .next t ∧ t.tap.ir = code ∧ t.tap.bsr = s.tap.bsr ∧ t.regs = s.regs ∧ t.mem = s.mem ∧
        ∀ p, p < 256 → (s.padsLatched = false → s.fldOf (aBankStat (p / 32)) 0 2 ≠ 0 → t.tapDrive p = some ((t.pad p).out, (t.pad p).oe)) ∧
          (s.padsLatched = true → (t.pad p).oe = false)) ∧
      (s.pinsOpen = false → exec i s = exec .bypass s)) ∧
    (∃ t, exec .bypass s = .next t ∧ t.tap.ir = 0xFF ∧ t.tap.dr = 0 ∧ t.tap.drBits = 1 ∧ t.regs = s.regs ∧ t.mem = s.mem) ∧
    (∃ t, exec .dbgStatus s = .next t ∧ t.tap.ir = 0x11 ∧ t.tap.dr = s.dbgStatusWord ∧ t.regs = s.regs ∧ t.mem = s.mem) ∧
    (s.up →
      (∀ cmd size addr data, s.jtagOpen = false → ∃ t, exec (.dbgAccess cmd size addr data) s = .next t ∧ t.tap.ir = 0xFF ∧
        t.tap.err = true ∧ t.tap.status = stDenied ∧ t.regs = s.regs ∧ t.mem = s.mem) ∧
      (∀ cmd size addr data, s.jtagOpen = true → (cmd = 1 ∨ cmd = 2) → s.scopeReaches addr = false →
        ∃ t, exec (.dbgAccess cmd size addr data) s = .next t ∧ t.tap.ir = 0x10 ∧ t.tap.dr = s.dbgOutcome ∧ t.tap.err = true ∧ t.tap.status = stDenied ∧
          t.regs = s.regs ∧ t.mem = s.mem ∧ t.noc = s.noc) ∧
      (∀ cmd size addr data r, s.jtagOpen = true → (cmd = 1 ∨ cmd = 2) → s.scopeReaches addr = true →
        (s.tapIr 0x10 s.dbgOutcome 121).sendReq (ioNode (targetOf s.part 0 addr).1) 3 .jtag (cmd == 2) (addr % 2 ^ 48) (2 ^ (size % 4))
          (bytesOfNat (2 ^ (size % 4)) data.toNat) s.pos .jtag = (r, true) →
        exec (.dbgAccess cmd size addr data) s = .next ({ r with tap := { r.tap with busy := true } })) ∧
      (s.sec.unlocked = true → ∃ t, exec .unlockExpiry s = .next t ∧ t.sec.unlocked = false ∧ t.sec.scope = 0 ∧ t.tap.ir = 0xFF ∧
        (∀ p, p < 256 → t.pinOwner p = if s.pinOwner p = 6 then 0 else s.pinOwner p) ∧ t.mem = s.mem) ∧
      (s.sec.unlocked = false → exec .unlockExpiry s = .next s))

/-- Debug halts, steps and runs (R438 to R440), and the trace (R213, R229, R447 to R449, R452, R453, R455). HALT_REQ halts the region at
once or requests the halt at a boundary to come; RUN lets a halted region go on, a paced one later by the time it stood; STEP_GO sets
how far it steps. At TS time passes to the next multiple
of the source's interval, its packet with that time goes into the buffer, and the tap sends it to the funnel at port 6 of its row's bridge. After a
loss OVERFLOW tells the count, then SYNC. The funnel sinks the oldest packet of the tap that it serves and answers the tap:
nowhere, over a lane, or into the ring, where WPTR passes it; while the ring has no room it waits. -/
def Obligations.DebugAndTraceAct : Prop :=
  ∀ (s : State), s.up →
    (∀ m, m < 16 → s.halted m = false → exec (.haltReq m) s = .next (s.haltReq m).settle ∧
      ((s.haltReq m).halted m = true ∨ ((s.haltReq m).rgn m).haltAt.isSome = true ∧ (s.haltReq m).bitOf (aDbgHalt m) 0 = true) ∧
      (s.haltReq m).mem = s.mem) ∧
    (∀ m, m < 16 → s.halted m = true → ∃ t, exec (.dbgHaltRun m) s = .next t ∧ t.halted m = false ∧ (t.rgn m).stepping = false ∧
      (t.rgn m).haltSum = 0 ∧ ((s.sched m).rt = false → (t.rgn m).s0 = (s.rgn m).s0) ∧
      ((s.sched m).rt = true → (t.rgn m).s0 = (s.rgn m).s0 + roundUp ((s.rgn m).haltSum + (s.tb - (s.rgn m).haltTick)) (s.pace m)) ∧
      (∀ a, a ≠ aDbgHalt m → t.reg a = s.reg a) ∧ t.mem = s.mem) ∧
    (∀ m, m < 16 → s.halted m = true → ∃ u, exec (.stepGo m) s = .next (State.settle (State.settleHalt u m)) ∧ u.halted m = false ∧
      (u.rgn m).stepping = true ∧ u.mem = s.mem ∧
      (s.bitOf (aDbgHalt m) 3 = false → (u.rgn m).haltAt = some (s.fastest m + s.fldOf (aDbgHalt m) 12 20)) ∧
      (s.bitOf (aDbgHalt m) 3 = true → ∀ tc, tc ∈ s.members m →
        (u.clu (cluKey tc.1 tc.2)).stepsLeft = s.fldOf (aDbgHalt m) 12 20)) ∧
    (∀ t, t < 64 → s.ttOn t 0 = true → (∀ u src, u < 64 → src < 2 → ¬ (u = t ∧ src = 0) → s.ttOn u src = false) →
      (s.ttSource t 0).lost = 0 → (s.ttSource t 0).atoms = [] → (s.ttSource t 0).sinceSync < 4096 → s.ttUsed t 0 + 10 ≤ 2048 →
      s.glueQuiet = true →
      let i := 256 * (s.fldOf (aTtCfg t) 2 8 + 1)
      let tb := (s.tb / i + 1) * i
      ∃ u, exec .ts s = .next u ∧ u.tb = tb ∧
        u.trace.packets = s.trace.packets ++ [{ t, src := 0, bytes := ttHead 5 0 t 0 ++ bytesOfNat 8 tb }] ∧
        u.regs = (s.advanceTo tb).regs ∧ u.mem = s.mem ∧ (s.trace.packets = [] → s.noc.tags = [] → ∃ x, u.noc.tags = [x] ∧ x.use = .telltale t ∧
          x.req.dstNode = 64 + t / 8 ∧ x.req.dstPort = 6 ∧ x.req.origin = .trace ∧
          x.req.data = (ttHead 5 0 t 0 ++ bytesOfNat 8 tb ++ zeros 16).take 16)) ∧
    (∀ t src, t < 64 → src < 2 → s.ttOn t src = true → 0 < (s.ttSource t src).lost → s.ttUsed t src + 64 ≤ 2048 →
      ∃ u, exec (.overflow t src) s = .next u ∧ u.trace.packets = s.trace.packets ++
          [{ t, src, bytes := ttHead 6 0 t src ++ bytesOfNat 2 (min (s.ttSource t src).lost 65535) },
           { t, src, bytes := s.ttSyncBytes t src }] ∧
        (u.ttSource t src).lost = 0 ∧ u.regs = (s.count (aTtStat t) 0 16).regs ∧ u.mem = s.mem) ∧
    (∀ q more p rest, s.trace.atFunnel = q :: more → takeFirst (fun (p : TtPacket) => p.t == q.srcNode) s.trace.packets = some (p, rest) →
      let s1 : State := { s with trace := { s.trace with packets := rest, atFunnel := more } }
      (s.fldOf aFunSink 0 2 = 0 → exec .tracePacketSink s = .next (s1.answer q stOk [] false).settle) ∧
      (s.fldOf aFunSink 0 2 = 3 → exec .tracePacketSink s = .next
        ((s1.linkMsg (s.fldOf aFunSink 3 8) 5 p.bytes).answer q stOk [] false).settle) ∧
      (s.fldOf aFunSink 0 2 = 1 → s.ringRoom p.bytes.length = true →
        s.fldOf aFunWptr 0 32 + p.bytes.length ≤ s.fldOf aFunSize 0 32 →
        s.ringStatus ((s.reg aFunBase).toNat + s.fldOf aFunWptr 0 32) p.bytes.length = stOk →
        ∃ u : State, exec .tracePacketSink s = .next (u.answer q stOk [] false).settle ∧ u.trace.packets = rest ∧
          u.bytes ((s.reg aFunBase).toNat + s.fldOf aFunWptr 0 32) p.bytes.length = p.bytes ∧
          u.fldOf aFunWptr 0 32 = (s.fldOf aFunWptr 0 32 + p.bytes.length) % s.fldOf aFunSize 0 32) ∧
      (s.fldOf aFunSink 0 2 = 1 → s.ringRoom p.bytes.length = false → exec .tracePacketSink s = .next s.settle)) ∧
    (s.trace.atFunnel = [] → exec .tracePacketSink s = .next s.settle)

/- Registers, reset values, steps. -/

/-- A register write (R9, R10, R209, R218, R221, R307, R394, R395): RW bits take the value written, a written 1 clears a W1C
bit and sets an RW1S bit, RO bits and reserved offsets ignore it; a requester that may not write, or a form the target does
not take, changes nothing and is recorded; the host writes mailboxes and doorbells. -/
def Obligations.RegisterWritesFollowAccess : Prop :=
  ∀ (s : State) (v : W64), s.up →
    (∀ n, n < 144 →
      exec (.registerWrite .mgmt (.internal (aLnCnt n)) 8 v) s = .next (s.setReg (aLnCnt n) v) ∧
      (∃ t, exec (.registerWrite .mgmt (.internal (aLnStat n)) 8 v) s = .next t ∧ (∀ a, t.reg a = s.reg a) ∧ t.mem = s.mem) ∧
      exec (.registerWrite .mgmt (.internal (aLnStat n + 0x20)) 8 v) s = .next s ∧
      exec (.registerWrite .mgmt (.internal (aLnCnt n)) 2 v) s = .next (s.nocErr (aLnCnt n) stMalformed (originCode .mgmt) 64) ∧
      exec (.registerWrite .host (.internal (aLnCnt n)) 8 v) s = .next (s.nocErr (aLnCnt n) stDenied (originCode .host) 64)) ∧
    exec (.registerWrite .mgmt (.internal aResetCause) 8 v) s =
      .next (s.setReg aResetCause (s.reg aResetCause &&& ~~~(v &&& bits 5 0))) ∧
    exec (.registerWrite .mgmt (.internal aCfgStatus) 8 v) s = .next (s.nocErr aCfgStatus stDenied (originCode .mgmt) 64) ∧
    (∀ m, m < 16 → s.fenced m = false →
      exec (.registerWrite .mgmt (.internal (aRgnRig m)) 8 v) s = .next (s.setReg (aRgnRig m) (s.reg (aRgnRig m) ||| (v &&& bits 1 1)))) ∧
    exec (.registerWrite .host (.bar0 0x1_0008) 4 v) s =
      .next (s.setReg aDbDone (s.reg aDbDone &&& ~~~(BitVec.ofNat 64 (v.toNat % 65536)))) ∧
    (∀ off, off < 0x1_0000 → off % 8 = 0 → s.bitOf aDbBusy (off / 0x1000) = false →
      exec (.registerWrite .host (.bar0 off) 8 v) s = .next (s.putMem (aBar0 off) (bytesOfNat 8 v.toNat))) ∧
    (∀ n, n < 16 → exec (.registerWrite .host (.bar0 0x1_0000) 4 (BitVec.ofNat 64 (2 ^ n))) s = .next (s.ring n))

/-- The state after reset (R66, R81, R86, R120, R177, R189, R250, R264, R361, R389): no command waits; registers and the
ownership table hold the values the spec gives, DRAM the 0 it has once filled (R185; log 8), and the state is canonical. -/
def Obligations.ResetState : Prop :=
  State.reset.pending = [] ∧ State.reset.up ∧ State.reset.Canonical ∧ State.reset.devState = 0 ∧ State.reset.level = 0 ∧
  State.reset.events.queue = [] ∧ State.reset.noc.flights = [] ∧ State.reset.raised = [] ∧ State.reset.sec.unlocked = false ∧
  (∀ t, t < 64 → State.reset.reg (aHoldLimit t) = 24 ∧ State.reset.reg (aSpCfg t) = 0x80 ∧ State.reset.reg (aTilePwr t) = 4) ∧
  (∀ m, m < 16 → State.reset.reg (aRgnSched m) = 0 ∧ State.reset.reg (aRgnSlipCfg m) = 0xFF_FFFF ∧ State.reset.rgnState m = 0 ∧
    State.reset.fenced m = true ∧ State.reset.halted m = false) ∧
  (∀ p, p < 256 → State.reset.reg (aPinCfg p) = 0x2000) ∧ (∀ k, k < 8 → State.reset.fldOf (aDcoCfg k) 23 11 = 200) ∧
  State.reset.reg aKetchCfg = 0xA06 ∧ State.reset.fldOf aReefCfg 0 8 = 95 ∧ State.reset.fldOf aReefCfg 16 10 = 700 ∧
  State.reset.fldOf aReefStat 3 3 = 4 ∧ State.reset.fldOf aPwrEst 32 16 = 750 ∧
  (∀ a, a < 0x10_0000_0000 → State.reset.byte a = 0) ∧
  (∀ g, g < 1024 → State.reset.byte (0x15_0800_0000 + g) = if 960 ≤ g then 0x11 else 0x1F)

/-- A step takes the command at the front of the queue and runs it on the state with the rest of the queue; on an empty
queue one tick of the time base passes, with what the clock alone brings about, which is the model's choice (log 2). -/
def Obligations.StepRunsFront : Prop :=
  ∀ (s : State) (c : Instr) (rest : List Instr),
    step { s with pending := c :: rest } = exec c { s with pending := rest } ∧
    step { s with pending := [] } = .next ({ s with pending := [] } : State).tick ∧
    (({ s with pending := [] } : State).tick.tb = s.tb ∨ ({ s with pending := [] } : State).tick.tb = s.tb + 1)

/-- No command of a part that runs stops the block; in device reset a command of the running part changes nothing; beyond the
ratio limits it has no rule and stops as clocksUndefined (R364, the fault is the model's, log 27), while reset causes, supplies,
pins and the TAP act in every state. -/
def Obligations.CommandsComplete : Prop :=
  ∀ (s : State) (c : Instr),
    (s.clk.undef = false → ∃ t, exec c s = .next t) ∧
    (anyStateOf c = true → ∃ t, exec c s = .next t) ∧
    (anyStateOf c = false → s.clk.undef = false → s.pwr.inReset = true → exec c s = .next s) ∧
    (anyStateOf c = false → s.clk.undef = true → exec c s = .fault .clocksUndefined)

/-- Every step from a state whose memory and registers are in canonical form leaves such a state, and leaves in the queue
exactly the commands that stood behind the front one: no command enters or leaves it otherwise. -/
def Obligations.StepsKeepCanonical : Prop :=
  ∀ (s t : State), s.Canonical → step s = .next t → t.Canonical ∧ t.pending = s.pending.tail
end

