-- ==== Sys2Proof/Laws/Store.lean ====
section
/-! SUPPORT. What reading a sparse map gives after each operation on it, and that each operation keeps the canonical form. -/

namespace Sys2Proof.Machine

@[simp] theorem mapGet_nil {α : Type} (d : Nat → α) (k : Nat) : mapGet d [] k = d k := rfl

theorem mapGet_dropIf {α : Type} (d : Nat → α) (p : Nat → Bool) (m : Map α) (k : Nat) :
    mapGet d (mapDropIf p m) k = if p k then d k else mapGet d m k := by
  induction m with
  | nil => simp [mapDropIf, mapGet]
  | cons e rest ih =>
    obtain ⟨a, v⟩ := e
    simp only [mapDropIf] at ih
    simp only [mapDropIf, List.filter_cons]
    by_cases hp : p a
    · simp only [hp, Bool.not_true, Bool.false_eq_true, if_false, ih, mapGet]
      by_cases hk : a = k
      · subst hk; simp [hp]
      · simp [hk]
    · simp only [Bool.not_eq_true] at hp
      simp only [hp, Bool.not_false, if_true, mapGet, ih]
      by_cases hk : a = k
      · subst hk; simp [hp]
      · simp [hk]

theorem mapGet_drop {α : Type} (d : Nat → α) (m : Map α) (j k : Nat) :
    mapGet d (mapDrop j m) k = if k = j then d k else mapGet d m k := by
  have h := mapGet_dropIf d (fun a => a == j) m k
  have he : mapDropIf (fun a => a == j) m = mapDrop j m := rfl
  rw [he] at h
  rw [h]
  by_cases hk : k = j <;> simp [hk]

theorem mapGet_insert {α : Type} (d : Nat → α) (m : Map α) (j k : Nat) (v : α)
    (hm : ∀ e ∈ m, e.1 ≠ j) :
    mapGet d (mapInsert j v m) k = if k = j then v else mapGet d m k := by
  induction m with
  | nil =>
    simp only [mapInsert, mapGet]
    by_cases hk : j = k
    · simp [hk]
    · have : ¬ k = j := fun h => hk h.symm
      simp [hk, this]
  | cons e rest ih =>
    obtain ⟨a, w⟩ := e
    have ha : a ≠ j := hm (a, w) (by simp)
    have hr := ih fun x hx => hm x (by simp [hx])
    simp only [mapInsert]
    split
    · simp only [mapGet]
      by_cases hk : j = k
      · simp [hk]
      · have : ¬ k = j := fun h => hk h.symm
        simp [hk, this]
    · simp only [mapGet, hr]
      by_cases hk : k = j
      · subst hk; simp [ha]
      · simp [hk]

/-- Reading after a write: the value at its key, every other key as before. -/
theorem mapGet_set {α : Type} [DecidableEq α] (d : Nat → α) (m : Map α) (j k : Nat) (v : α) :
    mapGet d (mapSet d m j v) k = if k = j then v else mapGet d m k := by
  unfold mapSet
  split
  · rename_i hv
    rw [mapGet_drop]
    by_cases hk : k = j
    · subst hk; simp [hv]
    · simp [hk]
  · rw [mapGet_insert]
    · by_cases hk : k = j
      · simp [hk]
      · simp [hk, mapGet_drop]
    · intro e he
      have := (List.mem_filter.mp he).2
      simpa using this

@[simp] theorem mapGet_set_same {α : Type} [DecidableEq α] (d : Nat → α) (m : Map α) (j : Nat) (v : α) :
    mapGet d (mapSet d m j v) j = v := by simp [mapGet_set]

theorem mapGet_set_other {α : Type} [DecidableEq α] (d : Nat → α) (m : Map α) (j k : Nat) (v : α) (h : k ≠ j) :
    mapGet d (mapSet d m j v) k = mapGet d m k := by simp [mapGet_set, h]

/-- A byte outside the bytes written reads as before; inside, it reads as what was written there. -/
theorem mapGet_putBytes (d : Nat → Byte) (m : Map Byte) (a : Nat) (bs : List Byte) (k : Nat) :
    mapGet d (putBytes d m a bs) k =
      if a ≤ k ∧ k < a + bs.length then bs.getD (k - a) 0 else mapGet d m k := by
  induction bs generalizing m a with
  | nil =>
    have : ¬ (a ≤ k ∧ k < a + ([] : List Byte).length) := by simp
    rw [if_neg this]; rfl
  | cons b rest ih =>
    simp only [putBytes, ih, mapGet_set, List.length_cons]
    by_cases hk : k = a
    · subst hk
      have h1 : ¬ (k + 1 ≤ k ∧ k < k + 1 + rest.length) := by omega
      have h2 : k ≤ k ∧ k < k + (rest.length + 1) := by omega
      rw [if_neg h1, if_pos rfl, if_pos h2]; simp
    · by_cases h1 : a + 1 ≤ k ∧ k < a + 1 + rest.length
      · have h2 : a ≤ k ∧ k < a + (rest.length + 1) := by omega
        rw [if_pos h1, if_pos h2]
        have : k - a = (k - (a + 1)) + 1 := by omega
        rw [this]; simp
      · have h2 : ¬ (a ≤ k ∧ k < a + (rest.length + 1)) := by omega
        rw [if_neg h1, if_neg h2, if_neg hk]

/-- A byte outside the bytes written reads as before. -/
theorem mapGet_putBytes_other (d : Nat → Byte) (m : Map Byte) (a : Nat) (bs : List Byte) (k : Nat)
    (h : k < a ∨ a + bs.length ≤ k) : mapGet d (putBytes d m a bs) k = mapGet d m k := by
  rw [mapGet_putBytes]
  have : ¬ (a ≤ k ∧ k < a + bs.length) := by omega
  rw [if_neg this]

theorem bytesAt_length (d : Nat → Byte) (m : Map Byte) (a n : Nat) : (bytesAt d m a n).length = n := by
  induction n generalizing a with
  | zero => rfl
  | succ n ih => simp [bytesAt, ih]

theorem mapWf_iff {α : Type} [DecidableEq α] (d : Nat → α) (m : Map α) :
    mapWf d m = true ↔ m.Pairwise (fun a b => a.1 < b.1) ∧ ∀ e ∈ m, e.2 ≠ d e.1 := by
  simp [mapWf, List.all_eq_true]

theorem mapDropIf_wf {α : Type} [DecidableEq α] (d : Nat → α) (p : Nat → Bool) (m : Map α)
    (h : mapWf d m = true) : mapWf d (mapDropIf p m) = true := by
  rw [mapWf_iff] at *
  exact ⟨h.1.filter _, fun e he => h.2 e (List.mem_filter.mp he).1⟩

theorem mapDrop_wf {α : Type} [DecidableEq α] (d : Nat → α) (k : Nat) (m : Map α)
    (h : mapWf d m = true) : mapWf d (mapDrop k m) = true :=
  mapDropIf_wf d (fun a => a == k) m h

theorem mem_mapInsert {α : Type} (k : Nat) (v : α) (m : Map α) (e : Nat × α) :
    e ∈ mapInsert k v m ↔ e = (k, v) ∨ e ∈ m := by
  induction m with
  | nil => simp [mapInsert]
  | cons a rest ih =>
    obtain ⟨a, w⟩ := a
    simp only [mapInsert]
    split
    · simp
    · simp only [List.mem_cons, ih]
      constructor
      · rintro (h | h | h)
        · exact .inr (.inl h)
        · exact .inl h
        · exact .inr (.inr h)
      · rintro (h | h | h)
        · exact .inr (.inl h)
        · exact .inl h
        · exact .inr (.inr h)

theorem mapInsert_sorted {α : Type} (k : Nat) (v : α) (m : Map α)
    (h : m.Pairwise fun a b => a.1 < b.1) (hk : ∀ e ∈ m, e.1 ≠ k) :
    (mapInsert k v m).Pairwise fun a b => a.1 < b.1 := by
  induction m with
  | nil => simp [mapInsert]
  | cons a rest ih =>
    obtain ⟨a, w⟩ := a
    rw [List.pairwise_cons] at h
    simp only [mapInsert]
    split
    · rename_i hlt
      rw [List.pairwise_cons, List.pairwise_cons]
      refine ⟨?_, h⟩
      intro e he
      rcases List.mem_cons.mp he with he | he
      · subst he; exact hlt
      · exact Nat.lt_trans hlt (h.1 e he)
    · rename_i hlt
      rw [List.pairwise_cons]
      refine ⟨?_, ih h.2 fun e he => hk e (by simp [he])⟩
      intro e he
      rcases (mem_mapInsert k v rest e).mp he with he | he
      · subst he
        have := hk (a, w) (by simp)
        simp only [ne_eq] at this
        show a < k
        omega
      · exact h.1 e he

/-- A write keeps the canonical form. -/
theorem mapSet_wf {α : Type} [DecidableEq α] (d : Nat → α) (m : Map α) (k : Nat) (v : α)
    (h : mapWf d m = true) : mapWf d (mapSet d m k v) = true := by
  unfold mapSet
  split
  · exact mapDrop_wf d k m h
  · rename_i hv
    have hd := mapDrop_wf d k m h
    rw [mapWf_iff] at hd ⊢
    have hk : ∀ e ∈ mapDrop k m, e.1 ≠ k := fun e he => by simpa using (List.mem_filter.mp he).2
    refine ⟨mapInsert_sorted k v _ hd.1 hk, ?_⟩
    intro e he
    rcases (mem_mapInsert k v _ e).mp he with he | he
    · subst he; exact hv
    · exact hd.2 e he

theorem putBytes_wf (d : Nat → Byte) (m : Map Byte) (a : Nat) (bs : List Byte)
    (h : mapWf d m = true) : mapWf d (putBytes d m a bs) = true := by
  induction bs generalizing m a with
  | nil => exact h
  | cons b rest ih => exact ih _ _ (mapSet_wf d m a b h)

end Sys2Proof.Machine
end

