-- ==== Sys2Proof/Laws/Keeps.lean ====
section
/-! SUPPORT. What every shared operation keeps: the queue of waiting commands and the canonical form of memory and registers. -/

namespace Sys2Proof.Machine

/-- `t` has the queue of `s`, and its memory and registers are in canonical form where those of `s` are. -/
def State.Keeps (s t : State) : Prop := t.pending = s.pending ∧ (s.Canonical → t.Canonical)

theorem State.keeps_refl (s : State) : s.Keeps s := ⟨rfl, id⟩

theorem State.keeps_trans {s t u : State} (h : s.Keeps t) (g : t.Keeps u) : s.Keeps u :=
  ⟨g.1.trans h.1, fun c => g.2 (h.2 c)⟩

/-- A change of fields other than the queue, the part, the memory and the registers keeps both. -/
theorem State.keeps_of_same {s t : State} (hq : t.pending = s.pending) (hp : t.part = s.part) (hm : t.mem = s.mem)
    (hr : t.regs = s.regs) : s.Keeps t :=
  ⟨hq, fun c => by unfold State.Canonical at *; rw [hp, hm, hr]; exact c⟩

theorem State.keeps_ite {s t u : State} (p : Prop) [Decidable p] (ht : s.Keeps t) (hu : s.Keeps u) : s.Keeps (if p then t else u) := by
  split <;> assumption

/-- Every element's change keeps both, so the changes in turn do. -/
theorem State.keeps_forEach {α : Type} (f : State → α → State) (h : ∀ (s : State) x, s.Keeps (f s x)) (l : List α) (s : State) :
    s.Keeps (s.forEach l f) := by
  unfold State.forEach
  induction l generalizing s with
  | nil => exact s.keeps_refl
  | cons x l ih => exact State.keeps_trans (h s x) (ih (f s x))

/- Registers. -/

theorem State.keeps_setReg (s : State) (a : Nat) (v : W64) : s.Keeps (s.setReg a v) :=
  ⟨rfl, fun c => ⟨c.1, mapSet_wf _ _ _ _ c.2⟩⟩

theorem State.keeps_setFld (s : State) (a lo w x : Nat) : s.Keeps (s.setFld a lo w x) := s.keeps_setReg _ _

theorem State.keeps_setBit (s : State) (a i : Nat) (b : Bool) : s.Keeps (s.setBit a i b) := s.keeps_setReg _ _

theorem State.keeps_count (s : State) (a lo w k : Nat) : s.Keeps (s.count a lo w k) := s.keeps_setReg _ _

theorem State.keeps_resetRegs (s : State) (p : Domain → Bool) : s.Keeps (s.resetRegs p) :=
  ⟨rfl, fun c => ⟨c.1, mapDropIf_wf regReset (fun a => p (regDomain a)) s.regs c.2⟩⟩

/- Memory. -/

theorem State.keeps_putMem (s : State) (a : Nat) (bs : List Byte) : s.Keeps (s.putMem a bs) :=
  ⟨rfl, fun c => ⟨putBytes_wf _ _ _ _ c.1, c.2⟩⟩

theorem State.keeps_putWord (s : State) (a : Nat) (w : W64) : s.Keeps (s.putWord a w) := s.keeps_putMem _ _

theorem State.keeps_clearMem (s : State) (a n : Nat) : s.Keeps (s.clearMem a n) :=
  ⟨rfl, fun c => ⟨mapDropIf_wf _ (fun k => decide (a ≤ k ∧ k < a + n)) s.mem c.1, c.2⟩⟩

theorem State.keeps_store (s : State) (a : Nat) (bs : List Byte) (poison : Bool) : s.Keeps (s.store a bs poison) :=
  ⟨rfl, fun c => ⟨putBytes_wf _ _ _ _ c.1, c.2⟩⟩

theorem State.keeps_setEcc (s : State) (a v : Nat) : s.Keeps (s.setEcc a v) := State.keeps_of_same rfl rfl rfl rfl

theorem State.keeps_markPages (s : State) (a n : Nat) : s.Keeps (s.markPages a n) :=
  State.keeps_ite _ (State.keeps_of_same rfl rfl rfl rfl) s.keeps_refl

/- Units, faults and interrupts. -/

theorem State.keeps_setClu (s : State) (k : Nat) (v : Clu) : s.Keeps (s.setClu k v) := State.keeps_of_same rfl rfl rfl rfl
theorem State.keeps_setRgn (s : State) (m : Nat) (v : Rgn) : s.Keeps (s.setRgn m v) := State.keeps_of_same rfl rfl rfl rfl
theorem State.keeps_setSw (s : State) (t : Nat) (v : Sw) : s.Keeps (s.setSw t v) := State.keeps_of_same rfl rfl rfl rfl
theorem State.keeps_setBr (s : State) (m : Nat) (v : Br) : s.Keeps (s.setBr m v) := State.keeps_of_same rfl rfl rfl rfl
theorem State.keeps_setBank (s : State) (k : Nat) (v : Bank) : s.Keeps (s.setBank k v) := State.keeps_of_same rfl rfl rfl rfl
theorem State.keeps_setChan (s : State) (g : Nat) (v : Chan) : s.Keeps (s.setChan g v) := State.keeps_of_same rfl rfl rfl rfl
theorem State.keeps_setArr (s : State) (t : Nat) (v : Arr) : s.Keeps (s.setArr t v) := State.keeps_of_same rfl rfl rfl rfl
theorem State.keeps_setCap (s : State) (t : Nat) (v : Cap) : s.Keeps (s.setCap t v) := State.keeps_of_same rfl rfl rfl rfl
theorem State.keeps_setLink (s : State) (n : Nat) (v : Link) : s.Keeps (s.setLink n v) := State.keeps_of_same rfl rfl rfl rfl
theorem State.keeps_setFine (s : State) (k : Nat) (v : Int) : s.Keeps (s.setFine k v) := State.keeps_of_same rfl rfl rfl rfl
theorem State.keeps_setCoarse (s : State) (k : Nat) (v : Int) : s.Keeps (s.setCoarse k v) := State.keeps_of_same rfl rfl rfl rfl

theorem State.keeps_setUnit (s : State) (u : UnitItem) : s.Keeps (s.setUnit u) := by
  cases u <;> exact State.keeps_of_same rfl rfl rfl rfl

theorem State.keeps_retrim (s : State) (k : Nat) : s.Keeps (s.retrim k) :=
  State.keeps_ite _ (State.keeps_trans (s.keeps_setCoarse k _) (State.keeps_setFine _ k _)) s.keeps_refl

theorem State.keeps_dcoRetrim (s : State) : s.Keeps s.dcoRetrim := State.keeps_forEach _ State.keeps_retrim _ s

theorem State.keeps_draw (s : State) : s.Keeps s.draw := State.keeps_of_same rfl rfl rfl rfl

theorem State.keeps_msix (s : State) (v : Nat) : s.Keeps (s.msix v) := by
  unfold State.msix; exact State.keeps_ite _ (State.keeps_of_same rfl rfl rfl rfl) (State.keeps_of_same rfl rfl rfl rfl)

theorem State.keeps_raise (s : State) (code region tile cluster : Nat) (detail : W64) (internal : Bool) :
    s.Keeps (s.raise code region tile cluster detail internal) := State.keeps_of_same rfl rfl rfl rfl

/-- The memory at reset is in canonical form. -/
theorem State.reset_mem_wf : mapWf (memDefault State.reset.part) State.reset.mem = true := rfl

end Sys2Proof.Machine
end

