-- ==== Sys2Proof/Laws/State.lean ====
section
/-! SUPPORT. One lemma for each field of `State` under each named update: the fields it does not write stay; then what the
written one reads as. -/

namespace Sys2Proof.Machine

/- putMem -/

@[simp] theorem State.putMem_pending (s : State) (a : Nat) (bs : List Byte) : (s.putMem a bs).pending = s.pending := rfl
@[simp] theorem State.putMem_part (s : State) (a : Nat) (bs : List Byte) : (s.putMem a bs).part = s.part := rfl
@[simp] theorem State.putMem_tb (s : State) (a : Nat) (bs : List Byte) : (s.putMem a bs).tb = s.tb := rfl
@[simp] theorem State.putMem_refcnt (s : State) (a : Nat) (bs : List Byte) : (s.putMem a bs).refcnt = s.refcnt := rfl
@[simp] theorem State.putMem_free (s : State) (a : Nat) (bs : List Byte) : (s.putMem a bs).free = s.free := rfl
@[simp] theorem State.putMem_ecc (s : State) (a : Nat) (bs : List Byte) : (s.putMem a bs).ecc = s.ecc := rfl
@[simp] theorem State.putMem_defects (s : State) (a : Nat) (bs : List Byte) : (s.putMem a bs).defects = s.defects := rfl
@[simp] theorem State.putMem_transients (s : State) (a : Nat) (bs : List Byte) : (s.putMem a bs).transients = s.transients := rfl
@[simp] theorem State.putMem_regs (s : State) (a : Nat) (bs : List Byte) : (s.putMem a bs).regs = s.regs := rfl
@[simp] theorem State.putMem_clus (s : State) (a : Nat) (bs : List Byte) : (s.putMem a bs).clus = s.clus := rfl
@[simp] theorem State.putMem_rgns (s : State) (a : Nat) (bs : List Byte) : (s.putMem a bs).rgns = s.rgns := rfl
@[simp] theorem State.putMem_sws (s : State) (a : Nat) (bs : List Byte) : (s.putMem a bs).sws = s.sws := rfl
@[simp] theorem State.putMem_brs (s : State) (a : Nat) (bs : List Byte) : (s.putMem a bs).brs = s.brs := rfl
@[simp] theorem State.putMem_noc (s : State) (a : Nat) (bs : List Byte) : (s.putMem a bs).noc = s.noc := rfl
@[simp] theorem State.putMem_banks (s : State) (a : Nat) (bs : List Byte) : (s.putMem a bs).banks = s.banks := rfl
@[simp] theorem State.putMem_chans (s : State) (a : Nat) (bs : List Byte) : (s.putMem a bs).chans = s.chans := rfl
@[simp] theorem State.putMem_raised (s : State) (a : Nat) (bs : List Byte) : (s.putMem a bs).raised = s.raised := rfl
@[simp] theorem State.putMem_events (s : State) (a : Nat) (bs : List Byte) : (s.putMem a bs).events = s.events := rfl
@[simp] theorem State.putMem_host (s : State) (a : Nat) (bs : List Byte) : (s.putMem a bs).host = s.host := rfl
@[simp] theorem State.putMem_links (s : State) (a : Nat) (bs : List Byte) : (s.putMem a bs).links = s.links := rfl
@[simp] theorem State.putMem_rawRx (s : State) (a : Nat) (bs : List Byte) : (s.putMem a bs).rawRx = s.rawRx := rfl
@[simp] theorem State.putMem_clk (s : State) (a : Nat) (bs : List Byte) : (s.putMem a bs).clk = s.clk := rfl
@[simp] theorem State.putMem_pwr (s : State) (a : Nat) (bs : List Byte) : (s.putMem a bs).pwr = s.pwr := rfl
@[simp] theorem State.putMem_stackTemps (s : State) (a : Nat) (bs : List Byte) : (s.putMem a bs).stackTemps = s.stackTemps := rfl
@[simp] theorem State.putMem_arrs (s : State) (a : Nat) (bs : List Byte) : (s.putMem a bs).arrs = s.arrs := rfl
@[simp] theorem State.putMem_glue (s : State) (a : Nat) (bs : List Byte) : (s.putMem a bs).glue = s.glue := rfl
@[simp] theorem State.putMem_caps (s : State) (a : Nat) (bs : List Byte) : (s.putMem a bs).caps = s.caps := rfl
@[simp] theorem State.putMem_trace (s : State) (a : Nat) (bs : List Byte) : (s.putMem a bs).trace = s.trace := rfl
@[simp] theorem State.putMem_tap (s : State) (a : Nat) (bs : List Byte) : (s.putMem a bs).tap = s.tap := rfl
@[simp] theorem State.putMem_casc (s : State) (a : Nat) (bs : List Byte) : (s.putMem a bs).casc = s.casc := rfl
@[simp] theorem State.putMem_engine (s : State) (a : Nat) (bs : List Byte) : (s.putMem a bs).engine = s.engine := rfl
@[simp] theorem State.putMem_mci (s : State) (a : Nat) (bs : List Byte) : (s.putMem a bs).mci = s.mci := rfl
@[simp] theorem State.putMem_ketch (s : State) (a : Nat) (bs : List Byte) : (s.putMem a bs).ketch = s.ketch := rfl
@[simp] theorem State.putMem_health (s : State) (a : Nat) (bs : List Byte) : (s.putMem a bs).health = s.health := rfl
@[simp] theorem State.putMem_sec (s : State) (a : Nat) (bs : List Byte) : (s.putMem a bs).sec = s.sec := rfl

/- clearMem -/

@[simp] theorem State.clearMem_pending (s : State) (a n : Nat) : (s.clearMem a n).pending = s.pending := rfl
@[simp] theorem State.clearMem_part (s : State) (a n : Nat) : (s.clearMem a n).part = s.part := rfl
@[simp] theorem State.clearMem_tb (s : State) (a n : Nat) : (s.clearMem a n).tb = s.tb := rfl
@[simp] theorem State.clearMem_refcnt (s : State) (a n : Nat) : (s.clearMem a n).refcnt = s.refcnt := rfl
@[simp] theorem State.clearMem_free (s : State) (a n : Nat) : (s.clearMem a n).free = s.free := rfl
@[simp] theorem State.clearMem_ecc (s : State) (a n : Nat) : (s.clearMem a n).ecc = s.ecc := rfl
@[simp] theorem State.clearMem_defects (s : State) (a n : Nat) : (s.clearMem a n).defects = s.defects := rfl
@[simp] theorem State.clearMem_transients (s : State) (a n : Nat) : (s.clearMem a n).transients = s.transients := rfl
@[simp] theorem State.clearMem_regs (s : State) (a n : Nat) : (s.clearMem a n).regs = s.regs := rfl
@[simp] theorem State.clearMem_clus (s : State) (a n : Nat) : (s.clearMem a n).clus = s.clus := rfl
@[simp] theorem State.clearMem_rgns (s : State) (a n : Nat) : (s.clearMem a n).rgns = s.rgns := rfl
@[simp] theorem State.clearMem_sws (s : State) (a n : Nat) : (s.clearMem a n).sws = s.sws := rfl
@[simp] theorem State.clearMem_brs (s : State) (a n : Nat) : (s.clearMem a n).brs = s.brs := rfl
@[simp] theorem State.clearMem_noc (s : State) (a n : Nat) : (s.clearMem a n).noc = s.noc := rfl
@[simp] theorem State.clearMem_banks (s : State) (a n : Nat) : (s.clearMem a n).banks = s.banks := rfl
@[simp] theorem State.clearMem_chans (s : State) (a n : Nat) : (s.clearMem a n).chans = s.chans := rfl
@[simp] theorem State.clearMem_raised (s : State) (a n : Nat) : (s.clearMem a n).raised = s.raised := rfl
@[simp] theorem State.clearMem_events (s : State) (a n : Nat) : (s.clearMem a n).events = s.events := rfl
@[simp] theorem State.clearMem_host (s : State) (a n : Nat) : (s.clearMem a n).host = s.host := rfl
@[simp] theorem State.clearMem_links (s : State) (a n : Nat) : (s.clearMem a n).links = s.links := rfl
@[simp] theorem State.clearMem_rawRx (s : State) (a n : Nat) : (s.clearMem a n).rawRx = s.rawRx := rfl
@[simp] theorem State.clearMem_clk (s : State) (a n : Nat) : (s.clearMem a n).clk = s.clk := rfl
@[simp] theorem State.clearMem_pwr (s : State) (a n : Nat) : (s.clearMem a n).pwr = s.pwr := rfl
@[simp] theorem State.clearMem_stackTemps (s : State) (a n : Nat) : (s.clearMem a n).stackTemps = s.stackTemps := rfl
@[simp] theorem State.clearMem_arrs (s : State) (a n : Nat) : (s.clearMem a n).arrs = s.arrs := rfl
@[simp] theorem State.clearMem_glue (s : State) (a n : Nat) : (s.clearMem a n).glue = s.glue := rfl
@[simp] theorem State.clearMem_caps (s : State) (a n : Nat) : (s.clearMem a n).caps = s.caps := rfl
@[simp] theorem State.clearMem_trace (s : State) (a n : Nat) : (s.clearMem a n).trace = s.trace := rfl
@[simp] theorem State.clearMem_tap (s : State) (a n : Nat) : (s.clearMem a n).tap = s.tap := rfl
@[simp] theorem State.clearMem_casc (s : State) (a n : Nat) : (s.clearMem a n).casc = s.casc := rfl
@[simp] theorem State.clearMem_engine (s : State) (a n : Nat) : (s.clearMem a n).engine = s.engine := rfl
@[simp] theorem State.clearMem_mci (s : State) (a n : Nat) : (s.clearMem a n).mci = s.mci := rfl
@[simp] theorem State.clearMem_ketch (s : State) (a n : Nat) : (s.clearMem a n).ketch = s.ketch := rfl
@[simp] theorem State.clearMem_health (s : State) (a n : Nat) : (s.clearMem a n).health = s.health := rfl
@[simp] theorem State.clearMem_sec (s : State) (a n : Nat) : (s.clearMem a n).sec = s.sec := rfl

/- setEcc -/

@[simp] theorem State.setEcc_pending (s : State) (a v : Nat) : (s.setEcc a v).pending = s.pending := rfl
@[simp] theorem State.setEcc_part (s : State) (a v : Nat) : (s.setEcc a v).part = s.part := rfl
@[simp] theorem State.setEcc_tb (s : State) (a v : Nat) : (s.setEcc a v).tb = s.tb := rfl
@[simp] theorem State.setEcc_refcnt (s : State) (a v : Nat) : (s.setEcc a v).refcnt = s.refcnt := rfl
@[simp] theorem State.setEcc_free (s : State) (a v : Nat) : (s.setEcc a v).free = s.free := rfl
@[simp] theorem State.setEcc_mem (s : State) (a v : Nat) : (s.setEcc a v).mem = s.mem := rfl
@[simp] theorem State.setEcc_defects (s : State) (a v : Nat) : (s.setEcc a v).defects = s.defects := rfl
@[simp] theorem State.setEcc_transients (s : State) (a v : Nat) : (s.setEcc a v).transients = s.transients := rfl
@[simp] theorem State.setEcc_regs (s : State) (a v : Nat) : (s.setEcc a v).regs = s.regs := rfl
@[simp] theorem State.setEcc_clus (s : State) (a v : Nat) : (s.setEcc a v).clus = s.clus := rfl
@[simp] theorem State.setEcc_rgns (s : State) (a v : Nat) : (s.setEcc a v).rgns = s.rgns := rfl
@[simp] theorem State.setEcc_sws (s : State) (a v : Nat) : (s.setEcc a v).sws = s.sws := rfl
@[simp] theorem State.setEcc_brs (s : State) (a v : Nat) : (s.setEcc a v).brs = s.brs := rfl
@[simp] theorem State.setEcc_noc (s : State) (a v : Nat) : (s.setEcc a v).noc = s.noc := rfl
@[simp] theorem State.setEcc_banks (s : State) (a v : Nat) : (s.setEcc a v).banks = s.banks := rfl
@[simp] theorem State.setEcc_chans (s : State) (a v : Nat) : (s.setEcc a v).chans = s.chans := rfl
@[simp] theorem State.setEcc_raised (s : State) (a v : Nat) : (s.setEcc a v).raised = s.raised := rfl
@[simp] theorem State.setEcc_events (s : State) (a v : Nat) : (s.setEcc a v).events = s.events := rfl
@[simp] theorem State.setEcc_host (s : State) (a v : Nat) : (s.setEcc a v).host = s.host := rfl
@[simp] theorem State.setEcc_links (s : State) (a v : Nat) : (s.setEcc a v).links = s.links := rfl
@[simp] theorem State.setEcc_rawRx (s : State) (a v : Nat) : (s.setEcc a v).rawRx = s.rawRx := rfl
@[simp] theorem State.setEcc_clk (s : State) (a v : Nat) : (s.setEcc a v).clk = s.clk := rfl
@[simp] theorem State.setEcc_pwr (s : State) (a v : Nat) : (s.setEcc a v).pwr = s.pwr := rfl
@[simp] theorem State.setEcc_stackTemps (s : State) (a v : Nat) : (s.setEcc a v).stackTemps = s.stackTemps := rfl
@[simp] theorem State.setEcc_arrs (s : State) (a v : Nat) : (s.setEcc a v).arrs = s.arrs := rfl
@[simp] theorem State.setEcc_glue (s : State) (a v : Nat) : (s.setEcc a v).glue = s.glue := rfl
@[simp] theorem State.setEcc_caps (s : State) (a v : Nat) : (s.setEcc a v).caps = s.caps := rfl
@[simp] theorem State.setEcc_trace (s : State) (a v : Nat) : (s.setEcc a v).trace = s.trace := rfl
@[simp] theorem State.setEcc_tap (s : State) (a v : Nat) : (s.setEcc a v).tap = s.tap := rfl
@[simp] theorem State.setEcc_casc (s : State) (a v : Nat) : (s.setEcc a v).casc = s.casc := rfl
@[simp] theorem State.setEcc_engine (s : State) (a v : Nat) : (s.setEcc a v).engine = s.engine := rfl
@[simp] theorem State.setEcc_mci (s : State) (a v : Nat) : (s.setEcc a v).mci = s.mci := rfl
@[simp] theorem State.setEcc_ketch (s : State) (a v : Nat) : (s.setEcc a v).ketch = s.ketch := rfl
@[simp] theorem State.setEcc_health (s : State) (a v : Nat) : (s.setEcc a v).health = s.health := rfl
@[simp] theorem State.setEcc_sec (s : State) (a v : Nat) : (s.setEcc a v).sec = s.sec := rfl

/- setReg -/

@[simp] theorem State.setReg_pending (s : State) (a : Nat) (v : W64) : (s.setReg a v).pending = s.pending := rfl
@[simp] theorem State.setReg_part (s : State) (a : Nat) (v : W64) : (s.setReg a v).part = s.part := rfl
@[simp] theorem State.setReg_tb (s : State) (a : Nat) (v : W64) : (s.setReg a v).tb = s.tb := rfl
@[simp] theorem State.setReg_refcnt (s : State) (a : Nat) (v : W64) : (s.setReg a v).refcnt = s.refcnt := rfl
@[simp] theorem State.setReg_free (s : State) (a : Nat) (v : W64) : (s.setReg a v).free = s.free := rfl
@[simp] theorem State.setReg_mem (s : State) (a : Nat) (v : W64) : (s.setReg a v).mem = s.mem := rfl
@[simp] theorem State.setReg_ecc (s : State) (a : Nat) (v : W64) : (s.setReg a v).ecc = s.ecc := rfl
@[simp] theorem State.setReg_defects (s : State) (a : Nat) (v : W64) : (s.setReg a v).defects = s.defects := rfl
@[simp] theorem State.setReg_transients (s : State) (a : Nat) (v : W64) : (s.setReg a v).transients = s.transients := rfl
@[simp] theorem State.setReg_clus (s : State) (a : Nat) (v : W64) : (s.setReg a v).clus = s.clus := rfl
@[simp] theorem State.setReg_rgns (s : State) (a : Nat) (v : W64) : (s.setReg a v).rgns = s.rgns := rfl
@[simp] theorem State.setReg_sws (s : State) (a : Nat) (v : W64) : (s.setReg a v).sws = s.sws := rfl
@[simp] theorem State.setReg_brs (s : State) (a : Nat) (v : W64) : (s.setReg a v).brs = s.brs := rfl
@[simp] theorem State.setReg_noc (s : State) (a : Nat) (v : W64) : (s.setReg a v).noc = s.noc := rfl
@[simp] theorem State.setReg_banks (s : State) (a : Nat) (v : W64) : (s.setReg a v).banks = s.banks := rfl
@[simp] theorem State.setReg_chans (s : State) (a : Nat) (v : W64) : (s.setReg a v).chans = s.chans := rfl
@[simp] theorem State.setReg_raised (s : State) (a : Nat) (v : W64) : (s.setReg a v).raised = s.raised := rfl
@[simp] theorem State.setReg_events (s : State) (a : Nat) (v : W64) : (s.setReg a v).events = s.events := rfl
@[simp] theorem State.setReg_host (s : State) (a : Nat) (v : W64) : (s.setReg a v).host = s.host := rfl
@[simp] theorem State.setReg_links (s : State) (a : Nat) (v : W64) : (s.setReg a v).links = s.links := rfl
@[simp] theorem State.setReg_rawRx (s : State) (a : Nat) (v : W64) : (s.setReg a v).rawRx = s.rawRx := rfl
@[simp] theorem State.setReg_clk (s : State) (a : Nat) (v : W64) : (s.setReg a v).clk = s.clk := rfl
@[simp] theorem State.setReg_pwr (s : State) (a : Nat) (v : W64) : (s.setReg a v).pwr = s.pwr := rfl
@[simp] theorem State.setReg_stackTemps (s : State) (a : Nat) (v : W64) : (s.setReg a v).stackTemps = s.stackTemps := rfl
@[simp] theorem State.setReg_arrs (s : State) (a : Nat) (v : W64) : (s.setReg a v).arrs = s.arrs := rfl
@[simp] theorem State.setReg_glue (s : State) (a : Nat) (v : W64) : (s.setReg a v).glue = s.glue := rfl
@[simp] theorem State.setReg_caps (s : State) (a : Nat) (v : W64) : (s.setReg a v).caps = s.caps := rfl
@[simp] theorem State.setReg_trace (s : State) (a : Nat) (v : W64) : (s.setReg a v).trace = s.trace := rfl
@[simp] theorem State.setReg_tap (s : State) (a : Nat) (v : W64) : (s.setReg a v).tap = s.tap := rfl
@[simp] theorem State.setReg_casc (s : State) (a : Nat) (v : W64) : (s.setReg a v).casc = s.casc := rfl
@[simp] theorem State.setReg_engine (s : State) (a : Nat) (v : W64) : (s.setReg a v).engine = s.engine := rfl
@[simp] theorem State.setReg_mci (s : State) (a : Nat) (v : W64) : (s.setReg a v).mci = s.mci := rfl
@[simp] theorem State.setReg_ketch (s : State) (a : Nat) (v : W64) : (s.setReg a v).ketch = s.ketch := rfl
@[simp] theorem State.setReg_health (s : State) (a : Nat) (v : W64) : (s.setReg a v).health = s.health := rfl
@[simp] theorem State.setReg_sec (s : State) (a : Nat) (v : W64) : (s.setReg a v).sec = s.sec := rfl

/- setFld -/

@[simp] theorem State.setFld_pending (s : State) (a lo w x : Nat) : (s.setFld a lo w x).pending = s.pending := rfl
@[simp] theorem State.setFld_part (s : State) (a lo w x : Nat) : (s.setFld a lo w x).part = s.part := rfl
@[simp] theorem State.setFld_tb (s : State) (a lo w x : Nat) : (s.setFld a lo w x).tb = s.tb := rfl
@[simp] theorem State.setFld_refcnt (s : State) (a lo w x : Nat) : (s.setFld a lo w x).refcnt = s.refcnt := rfl
@[simp] theorem State.setFld_free (s : State) (a lo w x : Nat) : (s.setFld a lo w x).free = s.free := rfl
@[simp] theorem State.setFld_mem (s : State) (a lo w x : Nat) : (s.setFld a lo w x).mem = s.mem := rfl
@[simp] theorem State.setFld_ecc (s : State) (a lo w x : Nat) : (s.setFld a lo w x).ecc = s.ecc := rfl
@[simp] theorem State.setFld_defects (s : State) (a lo w x : Nat) : (s.setFld a lo w x).defects = s.defects := rfl
@[simp] theorem State.setFld_transients (s : State) (a lo w x : Nat) : (s.setFld a lo w x).transients = s.transients := rfl
@[simp] theorem State.setFld_clus (s : State) (a lo w x : Nat) : (s.setFld a lo w x).clus = s.clus := rfl
@[simp] theorem State.setFld_rgns (s : State) (a lo w x : Nat) : (s.setFld a lo w x).rgns = s.rgns := rfl
@[simp] theorem State.setFld_sws (s : State) (a lo w x : Nat) : (s.setFld a lo w x).sws = s.sws := rfl
@[simp] theorem State.setFld_brs (s : State) (a lo w x : Nat) : (s.setFld a lo w x).brs = s.brs := rfl
@[simp] theorem State.setFld_noc (s : State) (a lo w x : Nat) : (s.setFld a lo w x).noc = s.noc := rfl
@[simp] theorem State.setFld_banks (s : State) (a lo w x : Nat) : (s.setFld a lo w x).banks = s.banks := rfl
@[simp] theorem State.setFld_chans (s : State) (a lo w x : Nat) : (s.setFld a lo w x).chans = s.chans := rfl
@[simp] theorem State.setFld_raised (s : State) (a lo w x : Nat) : (s.setFld a lo w x).raised = s.raised := rfl
@[simp] theorem State.setFld_events (s : State) (a lo w x : Nat) : (s.setFld a lo w x).events = s.events := rfl
@[simp] theorem State.setFld_host (s : State) (a lo w x : Nat) : (s.setFld a lo w x).host = s.host := rfl
@[simp] theorem State.setFld_links (s : State) (a lo w x : Nat) : (s.setFld a lo w x).links = s.links := rfl
@[simp] theorem State.setFld_rawRx (s : State) (a lo w x : Nat) : (s.setFld a lo w x).rawRx = s.rawRx := rfl
@[simp] theorem State.setFld_clk (s : State) (a lo w x : Nat) : (s.setFld a lo w x).clk = s.clk := rfl
@[simp] theorem State.setFld_pwr (s : State) (a lo w x : Nat) : (s.setFld a lo w x).pwr = s.pwr := rfl
@[simp] theorem State.setFld_stackTemps (s : State) (a lo w x : Nat) : (s.setFld a lo w x).stackTemps = s.stackTemps := rfl
@[simp] theorem State.setFld_arrs (s : State) (a lo w x : Nat) : (s.setFld a lo w x).arrs = s.arrs := rfl
@[simp] theorem State.setFld_glue (s : State) (a lo w x : Nat) : (s.setFld a lo w x).glue = s.glue := rfl
@[simp] theorem State.setFld_caps (s : State) (a lo w x : Nat) : (s.setFld a lo w x).caps = s.caps := rfl
@[simp] theorem State.setFld_trace (s : State) (a lo w x : Nat) : (s.setFld a lo w x).trace = s.trace := rfl
@[simp] theorem State.setFld_tap (s : State) (a lo w x : Nat) : (s.setFld a lo w x).tap = s.tap := rfl
@[simp] theorem State.setFld_casc (s : State) (a lo w x : Nat) : (s.setFld a lo w x).casc = s.casc := rfl
@[simp] theorem State.setFld_engine (s : State) (a lo w x : Nat) : (s.setFld a lo w x).engine = s.engine := rfl
@[simp] theorem State.setFld_mci (s : State) (a lo w x : Nat) : (s.setFld a lo w x).mci = s.mci := rfl
@[simp] theorem State.setFld_ketch (s : State) (a lo w x : Nat) : (s.setFld a lo w x).ketch = s.ketch := rfl
@[simp] theorem State.setFld_health (s : State) (a lo w x : Nat) : (s.setFld a lo w x).health = s.health := rfl
@[simp] theorem State.setFld_sec (s : State) (a lo w x : Nat) : (s.setFld a lo w x).sec = s.sec := rfl

/- setBit -/

@[simp] theorem State.setBit_pending (s : State) (a i : Nat) (b : Bool) : (s.setBit a i b).pending = s.pending := rfl
@[simp] theorem State.setBit_part (s : State) (a i : Nat) (b : Bool) : (s.setBit a i b).part = s.part := rfl
@[simp] theorem State.setBit_tb (s : State) (a i : Nat) (b : Bool) : (s.setBit a i b).tb = s.tb := rfl
@[simp] theorem State.setBit_refcnt (s : State) (a i : Nat) (b : Bool) : (s.setBit a i b).refcnt = s.refcnt := rfl
@[simp] theorem State.setBit_free (s : State) (a i : Nat) (b : Bool) : (s.setBit a i b).free = s.free := rfl
@[simp] theorem State.setBit_mem (s : State) (a i : Nat) (b : Bool) : (s.setBit a i b).mem = s.mem := rfl
@[simp] theorem State.setBit_ecc (s : State) (a i : Nat) (b : Bool) : (s.setBit a i b).ecc = s.ecc := rfl
@[simp] theorem State.setBit_defects (s : State) (a i : Nat) (b : Bool) : (s.setBit a i b).defects = s.defects := rfl
@[simp] theorem State.setBit_transients (s : State) (a i : Nat) (b : Bool) : (s.setBit a i b).transients = s.transients := rfl
@[simp] theorem State.setBit_clus (s : State) (a i : Nat) (b : Bool) : (s.setBit a i b).clus = s.clus := rfl
@[simp] theorem State.setBit_rgns (s : State) (a i : Nat) (b : Bool) : (s.setBit a i b).rgns = s.rgns := rfl
@[simp] theorem State.setBit_sws (s : State) (a i : Nat) (b : Bool) : (s.setBit a i b).sws = s.sws := rfl
@[simp] theorem State.setBit_brs (s : State) (a i : Nat) (b : Bool) : (s.setBit a i b).brs = s.brs := rfl
@[simp] theorem State.setBit_noc (s : State) (a i : Nat) (b : Bool) : (s.setBit a i b).noc = s.noc := rfl
@[simp] theorem State.setBit_banks (s : State) (a i : Nat) (b : Bool) : (s.setBit a i b).banks = s.banks := rfl
@[simp] theorem State.setBit_chans (s : State) (a i : Nat) (b : Bool) : (s.setBit a i b).chans = s.chans := rfl
@[simp] theorem State.setBit_raised (s : State) (a i : Nat) (b : Bool) : (s.setBit a i b).raised = s.raised := rfl
@[simp] theorem State.setBit_events (s : State) (a i : Nat) (b : Bool) : (s.setBit a i b).events = s.events := rfl
@[simp] theorem State.setBit_host (s : State) (a i : Nat) (b : Bool) : (s.setBit a i b).host = s.host := rfl
@[simp] theorem State.setBit_links (s : State) (a i : Nat) (b : Bool) : (s.setBit a i b).links = s.links := rfl
@[simp] theorem State.setBit_rawRx (s : State) (a i : Nat) (b : Bool) : (s.setBit a i b).rawRx = s.rawRx := rfl
@[simp] theorem State.setBit_clk (s : State) (a i : Nat) (b : Bool) : (s.setBit a i b).clk = s.clk := rfl
@[simp] theorem State.setBit_pwr (s : State) (a i : Nat) (b : Bool) : (s.setBit a i b).pwr = s.pwr := rfl
@[simp] theorem State.setBit_stackTemps (s : State) (a i : Nat) (b : Bool) : (s.setBit a i b).stackTemps = s.stackTemps := rfl
@[simp] theorem State.setBit_arrs (s : State) (a i : Nat) (b : Bool) : (s.setBit a i b).arrs = s.arrs := rfl
@[simp] theorem State.setBit_glue (s : State) (a i : Nat) (b : Bool) : (s.setBit a i b).glue = s.glue := rfl
@[simp] theorem State.setBit_caps (s : State) (a i : Nat) (b : Bool) : (s.setBit a i b).caps = s.caps := rfl
@[simp] theorem State.setBit_trace (s : State) (a i : Nat) (b : Bool) : (s.setBit a i b).trace = s.trace := rfl
@[simp] theorem State.setBit_tap (s : State) (a i : Nat) (b : Bool) : (s.setBit a i b).tap = s.tap := rfl
@[simp] theorem State.setBit_casc (s : State) (a i : Nat) (b : Bool) : (s.setBit a i b).casc = s.casc := rfl
@[simp] theorem State.setBit_engine (s : State) (a i : Nat) (b : Bool) : (s.setBit a i b).engine = s.engine := rfl
@[simp] theorem State.setBit_mci (s : State) (a i : Nat) (b : Bool) : (s.setBit a i b).mci = s.mci := rfl
@[simp] theorem State.setBit_ketch (s : State) (a i : Nat) (b : Bool) : (s.setBit a i b).ketch = s.ketch := rfl
@[simp] theorem State.setBit_health (s : State) (a i : Nat) (b : Bool) : (s.setBit a i b).health = s.health := rfl
@[simp] theorem State.setBit_sec (s : State) (a i : Nat) (b : Bool) : (s.setBit a i b).sec = s.sec := rfl

/- count -/

@[simp] theorem State.count_pending (s : State) (a lo w k : Nat) : (s.count a lo w k).pending = s.pending := rfl
@[simp] theorem State.count_part (s : State) (a lo w k : Nat) : (s.count a lo w k).part = s.part := rfl
@[simp] theorem State.count_tb (s : State) (a lo w k : Nat) : (s.count a lo w k).tb = s.tb := rfl
@[simp] theorem State.count_refcnt (s : State) (a lo w k : Nat) : (s.count a lo w k).refcnt = s.refcnt := rfl
@[simp] theorem State.count_free (s : State) (a lo w k : Nat) : (s.count a lo w k).free = s.free := rfl
@[simp] theorem State.count_mem (s : State) (a lo w k : Nat) : (s.count a lo w k).mem = s.mem := rfl
@[simp] theorem State.count_ecc (s : State) (a lo w k : Nat) : (s.count a lo w k).ecc = s.ecc := rfl
@[simp] theorem State.count_defects (s : State) (a lo w k : Nat) : (s.count a lo w k).defects = s.defects := rfl
@[simp] theorem State.count_transients (s : State) (a lo w k : Nat) : (s.count a lo w k).transients = s.transients := rfl
@[simp] theorem State.count_clus (s : State) (a lo w k : Nat) : (s.count a lo w k).clus = s.clus := rfl
@[simp] theorem State.count_rgns (s : State) (a lo w k : Nat) : (s.count a lo w k).rgns = s.rgns := rfl
@[simp] theorem State.count_sws (s : State) (a lo w k : Nat) : (s.count a lo w k).sws = s.sws := rfl
@[simp] theorem State.count_brs (s : State) (a lo w k : Nat) : (s.count a lo w k).brs = s.brs := rfl
@[simp] theorem State.count_noc (s : State) (a lo w k : Nat) : (s.count a lo w k).noc = s.noc := rfl
@[simp] theorem State.count_banks (s : State) (a lo w k : Nat) : (s.count a lo w k).banks = s.banks := rfl
@[simp] theorem State.count_chans (s : State) (a lo w k : Nat) : (s.count a lo w k).chans = s.chans := rfl
@[simp] theorem State.count_raised (s : State) (a lo w k : Nat) : (s.count a lo w k).raised = s.raised := rfl
@[simp] theorem State.count_events (s : State) (a lo w k : Nat) : (s.count a lo w k).events = s.events := rfl
@[simp] theorem State.count_host (s : State) (a lo w k : Nat) : (s.count a lo w k).host = s.host := rfl
@[simp] theorem State.count_links (s : State) (a lo w k : Nat) : (s.count a lo w k).links = s.links := rfl
@[simp] theorem State.count_rawRx (s : State) (a lo w k : Nat) : (s.count a lo w k).rawRx = s.rawRx := rfl
@[simp] theorem State.count_clk (s : State) (a lo w k : Nat) : (s.count a lo w k).clk = s.clk := rfl
@[simp] theorem State.count_pwr (s : State) (a lo w k : Nat) : (s.count a lo w k).pwr = s.pwr := rfl
@[simp] theorem State.count_stackTemps (s : State) (a lo w k : Nat) : (s.count a lo w k).stackTemps = s.stackTemps := rfl
@[simp] theorem State.count_arrs (s : State) (a lo w k : Nat) : (s.count a lo w k).arrs = s.arrs := rfl
@[simp] theorem State.count_glue (s : State) (a lo w k : Nat) : (s.count a lo w k).glue = s.glue := rfl
@[simp] theorem State.count_caps (s : State) (a lo w k : Nat) : (s.count a lo w k).caps = s.caps := rfl
@[simp] theorem State.count_trace (s : State) (a lo w k : Nat) : (s.count a lo w k).trace = s.trace := rfl
@[simp] theorem State.count_tap (s : State) (a lo w k : Nat) : (s.count a lo w k).tap = s.tap := rfl
@[simp] theorem State.count_casc (s : State) (a lo w k : Nat) : (s.count a lo w k).casc = s.casc := rfl
@[simp] theorem State.count_engine (s : State) (a lo w k : Nat) : (s.count a lo w k).engine = s.engine := rfl
@[simp] theorem State.count_mci (s : State) (a lo w k : Nat) : (s.count a lo w k).mci = s.mci := rfl
@[simp] theorem State.count_ketch (s : State) (a lo w k : Nat) : (s.count a lo w k).ketch = s.ketch := rfl
@[simp] theorem State.count_health (s : State) (a lo w k : Nat) : (s.count a lo w k).health = s.health := rfl
@[simp] theorem State.count_sec (s : State) (a lo w k : Nat) : (s.count a lo w k).sec = s.sec := rfl

/- resetRegs -/

@[simp] theorem State.resetRegs_pending (s : State) (p : Domain → Bool) : (s.resetRegs p).pending = s.pending := rfl
@[simp] theorem State.resetRegs_part (s : State) (p : Domain → Bool) : (s.resetRegs p).part = s.part := rfl
@[simp] theorem State.resetRegs_tb (s : State) (p : Domain → Bool) : (s.resetRegs p).tb = s.tb := rfl
@[simp] theorem State.resetRegs_refcnt (s : State) (p : Domain → Bool) : (s.resetRegs p).refcnt = s.refcnt := rfl
@[simp] theorem State.resetRegs_free (s : State) (p : Domain → Bool) : (s.resetRegs p).free = s.free := rfl
@[simp] theorem State.resetRegs_mem (s : State) (p : Domain → Bool) : (s.resetRegs p).mem = s.mem := rfl
@[simp] theorem State.resetRegs_ecc (s : State) (p : Domain → Bool) : (s.resetRegs p).ecc = s.ecc := rfl
@[simp] theorem State.resetRegs_defects (s : State) (p : Domain → Bool) : (s.resetRegs p).defects = s.defects := rfl
@[simp] theorem State.resetRegs_transients (s : State) (p : Domain → Bool) : (s.resetRegs p).transients = s.transients := rfl
@[simp] theorem State.resetRegs_clus (s : State) (p : Domain → Bool) : (s.resetRegs p).clus = s.clus := rfl
@[simp] theorem State.resetRegs_rgns (s : State) (p : Domain → Bool) : (s.resetRegs p).rgns = s.rgns := rfl
@[simp] theorem State.resetRegs_sws (s : State) (p : Domain → Bool) : (s.resetRegs p).sws = s.sws := rfl
@[simp] theorem State.resetRegs_brs (s : State) (p : Domain → Bool) : (s.resetRegs p).brs = s.brs := rfl
@[simp] theorem State.resetRegs_noc (s : State) (p : Domain → Bool) : (s.resetRegs p).noc = s.noc := rfl
@[simp] theorem State.resetRegs_banks (s : State) (p : Domain → Bool) : (s.resetRegs p).banks = s.banks := rfl
@[simp] theorem State.resetRegs_chans (s : State) (p : Domain → Bool) : (s.resetRegs p).chans = s.chans := rfl
@[simp] theorem State.resetRegs_raised (s : State) (p : Domain → Bool) : (s.resetRegs p).raised = s.raised := rfl
@[simp] theorem State.resetRegs_events (s : State) (p : Domain → Bool) : (s.resetRegs p).events = s.events := rfl
@[simp] theorem State.resetRegs_host (s : State) (p : Domain → Bool) : (s.resetRegs p).host = s.host := rfl
@[simp] theorem State.resetRegs_links (s : State) (p : Domain → Bool) : (s.resetRegs p).links = s.links := rfl
@[simp] theorem State.resetRegs_rawRx (s : State) (p : Domain → Bool) : (s.resetRegs p).rawRx = s.rawRx := rfl
@[simp] theorem State.resetRegs_clk (s : State) (p : Domain → Bool) : (s.resetRegs p).clk = s.clk := rfl
@[simp] theorem State.resetRegs_pwr (s : State) (p : Domain → Bool) : (s.resetRegs p).pwr = s.pwr := rfl
@[simp] theorem State.resetRegs_stackTemps (s : State) (p : Domain → Bool) : (s.resetRegs p).stackTemps = s.stackTemps := rfl
@[simp] theorem State.resetRegs_arrs (s : State) (p : Domain → Bool) : (s.resetRegs p).arrs = s.arrs := rfl
@[simp] theorem State.resetRegs_glue (s : State) (p : Domain → Bool) : (s.resetRegs p).glue = s.glue := rfl
@[simp] theorem State.resetRegs_caps (s : State) (p : Domain → Bool) : (s.resetRegs p).caps = s.caps := rfl
@[simp] theorem State.resetRegs_trace (s : State) (p : Domain → Bool) : (s.resetRegs p).trace = s.trace := rfl
@[simp] theorem State.resetRegs_tap (s : State) (p : Domain → Bool) : (s.resetRegs p).tap = s.tap := rfl
@[simp] theorem State.resetRegs_casc (s : State) (p : Domain → Bool) : (s.resetRegs p).casc = s.casc := rfl
@[simp] theorem State.resetRegs_engine (s : State) (p : Domain → Bool) : (s.resetRegs p).engine = s.engine := rfl
@[simp] theorem State.resetRegs_mci (s : State) (p : Domain → Bool) : (s.resetRegs p).mci = s.mci := rfl
@[simp] theorem State.resetRegs_ketch (s : State) (p : Domain → Bool) : (s.resetRegs p).ketch = s.ketch := rfl
@[simp] theorem State.resetRegs_health (s : State) (p : Domain → Bool) : (s.resetRegs p).health = s.health := rfl
@[simp] theorem State.resetRegs_sec (s : State) (p : Domain → Bool) : (s.resetRegs p).sec = s.sec := rfl

/- setClu -/

@[simp] theorem State.setClu_pending (s : State) (k : Nat) (v : Clu) : (s.setClu k v).pending = s.pending := rfl
@[simp] theorem State.setClu_part (s : State) (k : Nat) (v : Clu) : (s.setClu k v).part = s.part := rfl
@[simp] theorem State.setClu_tb (s : State) (k : Nat) (v : Clu) : (s.setClu k v).tb = s.tb := rfl
@[simp] theorem State.setClu_refcnt (s : State) (k : Nat) (v : Clu) : (s.setClu k v).refcnt = s.refcnt := rfl
@[simp] theorem State.setClu_free (s : State) (k : Nat) (v : Clu) : (s.setClu k v).free = s.free := rfl
@[simp] theorem State.setClu_mem (s : State) (k : Nat) (v : Clu) : (s.setClu k v).mem = s.mem := rfl
@[simp] theorem State.setClu_ecc (s : State) (k : Nat) (v : Clu) : (s.setClu k v).ecc = s.ecc := rfl
@[simp] theorem State.setClu_defects (s : State) (k : Nat) (v : Clu) : (s.setClu k v).defects = s.defects := rfl
@[simp] theorem State.setClu_transients (s : State) (k : Nat) (v : Clu) : (s.setClu k v).transients = s.transients := rfl
@[simp] theorem State.setClu_regs (s : State) (k : Nat) (v : Clu) : (s.setClu k v).regs = s.regs := rfl
@[simp] theorem State.setClu_rgns (s : State) (k : Nat) (v : Clu) : (s.setClu k v).rgns = s.rgns := rfl
@[simp] theorem State.setClu_sws (s : State) (k : Nat) (v : Clu) : (s.setClu k v).sws = s.sws := rfl
@[simp] theorem State.setClu_brs (s : State) (k : Nat) (v : Clu) : (s.setClu k v).brs = s.brs := rfl
@[simp] theorem State.setClu_noc (s : State) (k : Nat) (v : Clu) : (s.setClu k v).noc = s.noc := rfl
@[simp] theorem State.setClu_banks (s : State) (k : Nat) (v : Clu) : (s.setClu k v).banks = s.banks := rfl
@[simp] theorem State.setClu_chans (s : State) (k : Nat) (v : Clu) : (s.setClu k v).chans = s.chans := rfl
@[simp] theorem State.setClu_raised (s : State) (k : Nat) (v : Clu) : (s.setClu k v).raised = s.raised := rfl
@[simp] theorem State.setClu_events (s : State) (k : Nat) (v : Clu) : (s.setClu k v).events = s.events := rfl
@[simp] theorem State.setClu_host (s : State) (k : Nat) (v : Clu) : (s.setClu k v).host = s.host := rfl
@[simp] theorem State.setClu_links (s : State) (k : Nat) (v : Clu) : (s.setClu k v).links = s.links := rfl
@[simp] theorem State.setClu_rawRx (s : State) (k : Nat) (v : Clu) : (s.setClu k v).rawRx = s.rawRx := rfl
@[simp] theorem State.setClu_clk (s : State) (k : Nat) (v : Clu) : (s.setClu k v).clk = s.clk := rfl
@[simp] theorem State.setClu_pwr (s : State) (k : Nat) (v : Clu) : (s.setClu k v).pwr = s.pwr := rfl
@[simp] theorem State.setClu_stackTemps (s : State) (k : Nat) (v : Clu) : (s.setClu k v).stackTemps = s.stackTemps := rfl
@[simp] theorem State.setClu_arrs (s : State) (k : Nat) (v : Clu) : (s.setClu k v).arrs = s.arrs := rfl
@[simp] theorem State.setClu_glue (s : State) (k : Nat) (v : Clu) : (s.setClu k v).glue = s.glue := rfl
@[simp] theorem State.setClu_caps (s : State) (k : Nat) (v : Clu) : (s.setClu k v).caps = s.caps := rfl
@[simp] theorem State.setClu_trace (s : State) (k : Nat) (v : Clu) : (s.setClu k v).trace = s.trace := rfl
@[simp] theorem State.setClu_tap (s : State) (k : Nat) (v : Clu) : (s.setClu k v).tap = s.tap := rfl
@[simp] theorem State.setClu_casc (s : State) (k : Nat) (v : Clu) : (s.setClu k v).casc = s.casc := rfl
@[simp] theorem State.setClu_engine (s : State) (k : Nat) (v : Clu) : (s.setClu k v).engine = s.engine := rfl
@[simp] theorem State.setClu_mci (s : State) (k : Nat) (v : Clu) : (s.setClu k v).mci = s.mci := rfl
@[simp] theorem State.setClu_ketch (s : State) (k : Nat) (v : Clu) : (s.setClu k v).ketch = s.ketch := rfl
@[simp] theorem State.setClu_health (s : State) (k : Nat) (v : Clu) : (s.setClu k v).health = s.health := rfl
@[simp] theorem State.setClu_sec (s : State) (k : Nat) (v : Clu) : (s.setClu k v).sec = s.sec := rfl

/- setRgn -/

@[simp] theorem State.setRgn_pending (s : State) (m : Nat) (v : Rgn) : (s.setRgn m v).pending = s.pending := rfl
@[simp] theorem State.setRgn_part (s : State) (m : Nat) (v : Rgn) : (s.setRgn m v).part = s.part := rfl
@[simp] theorem State.setRgn_tb (s : State) (m : Nat) (v : Rgn) : (s.setRgn m v).tb = s.tb := rfl
@[simp] theorem State.setRgn_refcnt (s : State) (m : Nat) (v : Rgn) : (s.setRgn m v).refcnt = s.refcnt := rfl
@[simp] theorem State.setRgn_free (s : State) (m : Nat) (v : Rgn) : (s.setRgn m v).free = s.free := rfl
@[simp] theorem State.setRgn_mem (s : State) (m : Nat) (v : Rgn) : (s.setRgn m v).mem = s.mem := rfl
@[simp] theorem State.setRgn_ecc (s : State) (m : Nat) (v : Rgn) : (s.setRgn m v).ecc = s.ecc := rfl
@[simp] theorem State.setRgn_defects (s : State) (m : Nat) (v : Rgn) : (s.setRgn m v).defects = s.defects := rfl
@[simp] theorem State.setRgn_transients (s : State) (m : Nat) (v : Rgn) : (s.setRgn m v).transients = s.transients := rfl
@[simp] theorem State.setRgn_regs (s : State) (m : Nat) (v : Rgn) : (s.setRgn m v).regs = s.regs := rfl
@[simp] theorem State.setRgn_clus (s : State) (m : Nat) (v : Rgn) : (s.setRgn m v).clus = s.clus := rfl
@[simp] theorem State.setRgn_sws (s : State) (m : Nat) (v : Rgn) : (s.setRgn m v).sws = s.sws := rfl
@[simp] theorem State.setRgn_brs (s : State) (m : Nat) (v : Rgn) : (s.setRgn m v).brs = s.brs := rfl
@[simp] theorem State.setRgn_noc (s : State) (m : Nat) (v : Rgn) : (s.setRgn m v).noc = s.noc := rfl
@[simp] theorem State.setRgn_banks (s : State) (m : Nat) (v : Rgn) : (s.setRgn m v).banks = s.banks := rfl
@[simp] theorem State.setRgn_chans (s : State) (m : Nat) (v : Rgn) : (s.setRgn m v).chans = s.chans := rfl
@[simp] theorem State.setRgn_raised (s : State) (m : Nat) (v : Rgn) : (s.setRgn m v).raised = s.raised := rfl
@[simp] theorem State.setRgn_events (s : State) (m : Nat) (v : Rgn) : (s.setRgn m v).events = s.events := rfl
@[simp] theorem State.setRgn_host (s : State) (m : Nat) (v : Rgn) : (s.setRgn m v).host = s.host := rfl
@[simp] theorem State.setRgn_links (s : State) (m : Nat) (v : Rgn) : (s.setRgn m v).links = s.links := rfl
@[simp] theorem State.setRgn_rawRx (s : State) (m : Nat) (v : Rgn) : (s.setRgn m v).rawRx = s.rawRx := rfl
@[simp] theorem State.setRgn_clk (s : State) (m : Nat) (v : Rgn) : (s.setRgn m v).clk = s.clk := rfl
@[simp] theorem State.setRgn_pwr (s : State) (m : Nat) (v : Rgn) : (s.setRgn m v).pwr = s.pwr := rfl
@[simp] theorem State.setRgn_stackTemps (s : State) (m : Nat) (v : Rgn) : (s.setRgn m v).stackTemps = s.stackTemps := rfl
@[simp] theorem State.setRgn_arrs (s : State) (m : Nat) (v : Rgn) : (s.setRgn m v).arrs = s.arrs := rfl
@[simp] theorem State.setRgn_glue (s : State) (m : Nat) (v : Rgn) : (s.setRgn m v).glue = s.glue := rfl
@[simp] theorem State.setRgn_caps (s : State) (m : Nat) (v : Rgn) : (s.setRgn m v).caps = s.caps := rfl
@[simp] theorem State.setRgn_trace (s : State) (m : Nat) (v : Rgn) : (s.setRgn m v).trace = s.trace := rfl
@[simp] theorem State.setRgn_tap (s : State) (m : Nat) (v : Rgn) : (s.setRgn m v).tap = s.tap := rfl
@[simp] theorem State.setRgn_casc (s : State) (m : Nat) (v : Rgn) : (s.setRgn m v).casc = s.casc := rfl
@[simp] theorem State.setRgn_engine (s : State) (m : Nat) (v : Rgn) : (s.setRgn m v).engine = s.engine := rfl
@[simp] theorem State.setRgn_mci (s : State) (m : Nat) (v : Rgn) : (s.setRgn m v).mci = s.mci := rfl
@[simp] theorem State.setRgn_ketch (s : State) (m : Nat) (v : Rgn) : (s.setRgn m v).ketch = s.ketch := rfl
@[simp] theorem State.setRgn_health (s : State) (m : Nat) (v : Rgn) : (s.setRgn m v).health = s.health := rfl
@[simp] theorem State.setRgn_sec (s : State) (m : Nat) (v : Rgn) : (s.setRgn m v).sec = s.sec := rfl

/- setSw -/

@[simp] theorem State.setSw_pending (s : State) (t : Nat) (v : Sw) : (s.setSw t v).pending = s.pending := rfl
@[simp] theorem State.setSw_part (s : State) (t : Nat) (v : Sw) : (s.setSw t v).part = s.part := rfl
@[simp] theorem State.setSw_tb (s : State) (t : Nat) (v : Sw) : (s.setSw t v).tb = s.tb := rfl
@[simp] theorem State.setSw_refcnt (s : State) (t : Nat) (v : Sw) : (s.setSw t v).refcnt = s.refcnt := rfl
@[simp] theorem State.setSw_free (s : State) (t : Nat) (v : Sw) : (s.setSw t v).free = s.free := rfl
@[simp] theorem State.setSw_mem (s : State) (t : Nat) (v : Sw) : (s.setSw t v).mem = s.mem := rfl
@[simp] theorem State.setSw_ecc (s : State) (t : Nat) (v : Sw) : (s.setSw t v).ecc = s.ecc := rfl
@[simp] theorem State.setSw_defects (s : State) (t : Nat) (v : Sw) : (s.setSw t v).defects = s.defects := rfl
@[simp] theorem State.setSw_transients (s : State) (t : Nat) (v : Sw) : (s.setSw t v).transients = s.transients := rfl
@[simp] theorem State.setSw_regs (s : State) (t : Nat) (v : Sw) : (s.setSw t v).regs = s.regs := rfl
@[simp] theorem State.setSw_clus (s : State) (t : Nat) (v : Sw) : (s.setSw t v).clus = s.clus := rfl
@[simp] theorem State.setSw_rgns (s : State) (t : Nat) (v : Sw) : (s.setSw t v).rgns = s.rgns := rfl
@[simp] theorem State.setSw_brs (s : State) (t : Nat) (v : Sw) : (s.setSw t v).brs = s.brs := rfl
@[simp] theorem State.setSw_noc (s : State) (t : Nat) (v : Sw) : (s.setSw t v).noc = s.noc := rfl
@[simp] theorem State.setSw_banks (s : State) (t : Nat) (v : Sw) : (s.setSw t v).banks = s.banks := rfl
@[simp] theorem State.setSw_chans (s : State) (t : Nat) (v : Sw) : (s.setSw t v).chans = s.chans := rfl
@[simp] theorem State.setSw_raised (s : State) (t : Nat) (v : Sw) : (s.setSw t v).raised = s.raised := rfl
@[simp] theorem State.setSw_events (s : State) (t : Nat) (v : Sw) : (s.setSw t v).events = s.events := rfl
@[simp] theorem State.setSw_host (s : State) (t : Nat) (v : Sw) : (s.setSw t v).host = s.host := rfl
@[simp] theorem State.setSw_links (s : State) (t : Nat) (v : Sw) : (s.setSw t v).links = s.links := rfl
@[simp] theorem State.setSw_rawRx (s : State) (t : Nat) (v : Sw) : (s.setSw t v).rawRx = s.rawRx := rfl
@[simp] theorem State.setSw_clk (s : State) (t : Nat) (v : Sw) : (s.setSw t v).clk = s.clk := rfl
@[simp] theorem State.setSw_pwr (s : State) (t : Nat) (v : Sw) : (s.setSw t v).pwr = s.pwr := rfl
@[simp] theorem State.setSw_stackTemps (s : State) (t : Nat) (v : Sw) : (s.setSw t v).stackTemps = s.stackTemps := rfl
@[simp] theorem State.setSw_arrs (s : State) (t : Nat) (v : Sw) : (s.setSw t v).arrs = s.arrs := rfl
@[simp] theorem State.setSw_glue (s : State) (t : Nat) (v : Sw) : (s.setSw t v).glue = s.glue := rfl
@[simp] theorem State.setSw_caps (s : State) (t : Nat) (v : Sw) : (s.setSw t v).caps = s.caps := rfl
@[simp] theorem State.setSw_trace (s : State) (t : Nat) (v : Sw) : (s.setSw t v).trace = s.trace := rfl
@[simp] theorem State.setSw_tap (s : State) (t : Nat) (v : Sw) : (s.setSw t v).tap = s.tap := rfl
@[simp] theorem State.setSw_casc (s : State) (t : Nat) (v : Sw) : (s.setSw t v).casc = s.casc := rfl
@[simp] theorem State.setSw_engine (s : State) (t : Nat) (v : Sw) : (s.setSw t v).engine = s.engine := rfl
@[simp] theorem State.setSw_mci (s : State) (t : Nat) (v : Sw) : (s.setSw t v).mci = s.mci := rfl
@[simp] theorem State.setSw_ketch (s : State) (t : Nat) (v : Sw) : (s.setSw t v).ketch = s.ketch := rfl
@[simp] theorem State.setSw_health (s : State) (t : Nat) (v : Sw) : (s.setSw t v).health = s.health := rfl
@[simp] theorem State.setSw_sec (s : State) (t : Nat) (v : Sw) : (s.setSw t v).sec = s.sec := rfl

/- setBr -/

@[simp] theorem State.setBr_pending (s : State) (m : Nat) (v : Br) : (s.setBr m v).pending = s.pending := rfl
@[simp] theorem State.setBr_part (s : State) (m : Nat) (v : Br) : (s.setBr m v).part = s.part := rfl
@[simp] theorem State.setBr_tb (s : State) (m : Nat) (v : Br) : (s.setBr m v).tb = s.tb := rfl
@[simp] theorem State.setBr_refcnt (s : State) (m : Nat) (v : Br) : (s.setBr m v).refcnt = s.refcnt := rfl
@[simp] theorem State.setBr_free (s : State) (m : Nat) (v : Br) : (s.setBr m v).free = s.free := rfl
@[simp] theorem State.setBr_mem (s : State) (m : Nat) (v : Br) : (s.setBr m v).mem = s.mem := rfl
@[simp] theorem State.setBr_ecc (s : State) (m : Nat) (v : Br) : (s.setBr m v).ecc = s.ecc := rfl
@[simp] theorem State.setBr_defects (s : State) (m : Nat) (v : Br) : (s.setBr m v).defects = s.defects := rfl
@[simp] theorem State.setBr_transients (s : State) (m : Nat) (v : Br) : (s.setBr m v).transients = s.transients := rfl
@[simp] theorem State.setBr_regs (s : State) (m : Nat) (v : Br) : (s.setBr m v).regs = s.regs := rfl
@[simp] theorem State.setBr_clus (s : State) (m : Nat) (v : Br) : (s.setBr m v).clus = s.clus := rfl
@[simp] theorem State.setBr_rgns (s : State) (m : Nat) (v : Br) : (s.setBr m v).rgns = s.rgns := rfl
@[simp] theorem State.setBr_sws (s : State) (m : Nat) (v : Br) : (s.setBr m v).sws = s.sws := rfl
@[simp] theorem State.setBr_noc (s : State) (m : Nat) (v : Br) : (s.setBr m v).noc = s.noc := rfl
@[simp] theorem State.setBr_banks (s : State) (m : Nat) (v : Br) : (s.setBr m v).banks = s.banks := rfl
@[simp] theorem State.setBr_chans (s : State) (m : Nat) (v : Br) : (s.setBr m v).chans = s.chans := rfl
@[simp] theorem State.setBr_raised (s : State) (m : Nat) (v : Br) : (s.setBr m v).raised = s.raised := rfl
@[simp] theorem State.setBr_events (s : State) (m : Nat) (v : Br) : (s.setBr m v).events = s.events := rfl
@[simp] theorem State.setBr_host (s : State) (m : Nat) (v : Br) : (s.setBr m v).host = s.host := rfl
@[simp] theorem State.setBr_links (s : State) (m : Nat) (v : Br) : (s.setBr m v).links = s.links := rfl
@[simp] theorem State.setBr_rawRx (s : State) (m : Nat) (v : Br) : (s.setBr m v).rawRx = s.rawRx := rfl
@[simp] theorem State.setBr_clk (s : State) (m : Nat) (v : Br) : (s.setBr m v).clk = s.clk := rfl
@[simp] theorem State.setBr_pwr (s : State) (m : Nat) (v : Br) : (s.setBr m v).pwr = s.pwr := rfl
@[simp] theorem State.setBr_stackTemps (s : State) (m : Nat) (v : Br) : (s.setBr m v).stackTemps = s.stackTemps := rfl
@[simp] theorem State.setBr_arrs (s : State) (m : Nat) (v : Br) : (s.setBr m v).arrs = s.arrs := rfl
@[simp] theorem State.setBr_glue (s : State) (m : Nat) (v : Br) : (s.setBr m v).glue = s.glue := rfl
@[simp] theorem State.setBr_caps (s : State) (m : Nat) (v : Br) : (s.setBr m v).caps = s.caps := rfl
@[simp] theorem State.setBr_trace (s : State) (m : Nat) (v : Br) : (s.setBr m v).trace = s.trace := rfl
@[simp] theorem State.setBr_tap (s : State) (m : Nat) (v : Br) : (s.setBr m v).tap = s.tap := rfl
@[simp] theorem State.setBr_casc (s : State) (m : Nat) (v : Br) : (s.setBr m v).casc = s.casc := rfl
@[simp] theorem State.setBr_engine (s : State) (m : Nat) (v : Br) : (s.setBr m v).engine = s.engine := rfl
@[simp] theorem State.setBr_mci (s : State) (m : Nat) (v : Br) : (s.setBr m v).mci = s.mci := rfl
@[simp] theorem State.setBr_ketch (s : State) (m : Nat) (v : Br) : (s.setBr m v).ketch = s.ketch := rfl
@[simp] theorem State.setBr_health (s : State) (m : Nat) (v : Br) : (s.setBr m v).health = s.health := rfl
@[simp] theorem State.setBr_sec (s : State) (m : Nat) (v : Br) : (s.setBr m v).sec = s.sec := rfl

/- setBank -/

@[simp] theorem State.setBank_pending (s : State) (k : Nat) (v : Bank) : (s.setBank k v).pending = s.pending := rfl
@[simp] theorem State.setBank_part (s : State) (k : Nat) (v : Bank) : (s.setBank k v).part = s.part := rfl
@[simp] theorem State.setBank_tb (s : State) (k : Nat) (v : Bank) : (s.setBank k v).tb = s.tb := rfl
@[simp] theorem State.setBank_refcnt (s : State) (k : Nat) (v : Bank) : (s.setBank k v).refcnt = s.refcnt := rfl
@[simp] theorem State.setBank_free (s : State) (k : Nat) (v : Bank) : (s.setBank k v).free = s.free := rfl
@[simp] theorem State.setBank_mem (s : State) (k : Nat) (v : Bank) : (s.setBank k v).mem = s.mem := rfl
@[simp] theorem State.setBank_ecc (s : State) (k : Nat) (v : Bank) : (s.setBank k v).ecc = s.ecc := rfl
@[simp] theorem State.setBank_defects (s : State) (k : Nat) (v : Bank) : (s.setBank k v).defects = s.defects := rfl
@[simp] theorem State.setBank_transients (s : State) (k : Nat) (v : Bank) : (s.setBank k v).transients = s.transients := rfl
@[simp] theorem State.setBank_regs (s : State) (k : Nat) (v : Bank) : (s.setBank k v).regs = s.regs := rfl
@[simp] theorem State.setBank_clus (s : State) (k : Nat) (v : Bank) : (s.setBank k v).clus = s.clus := rfl
@[simp] theorem State.setBank_rgns (s : State) (k : Nat) (v : Bank) : (s.setBank k v).rgns = s.rgns := rfl
@[simp] theorem State.setBank_sws (s : State) (k : Nat) (v : Bank) : (s.setBank k v).sws = s.sws := rfl
@[simp] theorem State.setBank_brs (s : State) (k : Nat) (v : Bank) : (s.setBank k v).brs = s.brs := rfl
@[simp] theorem State.setBank_noc (s : State) (k : Nat) (v : Bank) : (s.setBank k v).noc = s.noc := rfl
@[simp] theorem State.setBank_chans (s : State) (k : Nat) (v : Bank) : (s.setBank k v).chans = s.chans := rfl
@[simp] theorem State.setBank_raised (s : State) (k : Nat) (v : Bank) : (s.setBank k v).raised = s.raised := rfl
@[simp] theorem State.setBank_events (s : State) (k : Nat) (v : Bank) : (s.setBank k v).events = s.events := rfl
@[simp] theorem State.setBank_host (s : State) (k : Nat) (v : Bank) : (s.setBank k v).host = s.host := rfl
@[simp] theorem State.setBank_links (s : State) (k : Nat) (v : Bank) : (s.setBank k v).links = s.links := rfl
@[simp] theorem State.setBank_rawRx (s : State) (k : Nat) (v : Bank) : (s.setBank k v).rawRx = s.rawRx := rfl
@[simp] theorem State.setBank_clk (s : State) (k : Nat) (v : Bank) : (s.setBank k v).clk = s.clk := rfl
@[simp] theorem State.setBank_pwr (s : State) (k : Nat) (v : Bank) : (s.setBank k v).pwr = s.pwr := rfl
@[simp] theorem State.setBank_stackTemps (s : State) (k : Nat) (v : Bank) : (s.setBank k v).stackTemps = s.stackTemps := rfl
@[simp] theorem State.setBank_arrs (s : State) (k : Nat) (v : Bank) : (s.setBank k v).arrs = s.arrs := rfl
@[simp] theorem State.setBank_glue (s : State) (k : Nat) (v : Bank) : (s.setBank k v).glue = s.glue := rfl
@[simp] theorem State.setBank_caps (s : State) (k : Nat) (v : Bank) : (s.setBank k v).caps = s.caps := rfl
@[simp] theorem State.setBank_trace (s : State) (k : Nat) (v : Bank) : (s.setBank k v).trace = s.trace := rfl
@[simp] theorem State.setBank_tap (s : State) (k : Nat) (v : Bank) : (s.setBank k v).tap = s.tap := rfl
@[simp] theorem State.setBank_casc (s : State) (k : Nat) (v : Bank) : (s.setBank k v).casc = s.casc := rfl
@[simp] theorem State.setBank_engine (s : State) (k : Nat) (v : Bank) : (s.setBank k v).engine = s.engine := rfl
@[simp] theorem State.setBank_mci (s : State) (k : Nat) (v : Bank) : (s.setBank k v).mci = s.mci := rfl
@[simp] theorem State.setBank_ketch (s : State) (k : Nat) (v : Bank) : (s.setBank k v).ketch = s.ketch := rfl
@[simp] theorem State.setBank_health (s : State) (k : Nat) (v : Bank) : (s.setBank k v).health = s.health := rfl
@[simp] theorem State.setBank_sec (s : State) (k : Nat) (v : Bank) : (s.setBank k v).sec = s.sec := rfl

/- setChan -/

@[simp] theorem State.setChan_pending (s : State) (g : Nat) (v : Chan) : (s.setChan g v).pending = s.pending := rfl
@[simp] theorem State.setChan_part (s : State) (g : Nat) (v : Chan) : (s.setChan g v).part = s.part := rfl
@[simp] theorem State.setChan_tb (s : State) (g : Nat) (v : Chan) : (s.setChan g v).tb = s.tb := rfl
@[simp] theorem State.setChan_refcnt (s : State) (g : Nat) (v : Chan) : (s.setChan g v).refcnt = s.refcnt := rfl
@[simp] theorem State.setChan_free (s : State) (g : Nat) (v : Chan) : (s.setChan g v).free = s.free := rfl
@[simp] theorem State.setChan_mem (s : State) (g : Nat) (v : Chan) : (s.setChan g v).mem = s.mem := rfl
@[simp] theorem State.setChan_ecc (s : State) (g : Nat) (v : Chan) : (s.setChan g v).ecc = s.ecc := rfl
@[simp] theorem State.setChan_defects (s : State) (g : Nat) (v : Chan) : (s.setChan g v).defects = s.defects := rfl
@[simp] theorem State.setChan_transients (s : State) (g : Nat) (v : Chan) : (s.setChan g v).transients = s.transients := rfl
@[simp] theorem State.setChan_regs (s : State) (g : Nat) (v : Chan) : (s.setChan g v).regs = s.regs := rfl
@[simp] theorem State.setChan_clus (s : State) (g : Nat) (v : Chan) : (s.setChan g v).clus = s.clus := rfl
@[simp] theorem State.setChan_rgns (s : State) (g : Nat) (v : Chan) : (s.setChan g v).rgns = s.rgns := rfl
@[simp] theorem State.setChan_sws (s : State) (g : Nat) (v : Chan) : (s.setChan g v).sws = s.sws := rfl
@[simp] theorem State.setChan_brs (s : State) (g : Nat) (v : Chan) : (s.setChan g v).brs = s.brs := rfl
@[simp] theorem State.setChan_noc (s : State) (g : Nat) (v : Chan) : (s.setChan g v).noc = s.noc := rfl
@[simp] theorem State.setChan_banks (s : State) (g : Nat) (v : Chan) : (s.setChan g v).banks = s.banks := rfl
@[simp] theorem State.setChan_raised (s : State) (g : Nat) (v : Chan) : (s.setChan g v).raised = s.raised := rfl
@[simp] theorem State.setChan_events (s : State) (g : Nat) (v : Chan) : (s.setChan g v).events = s.events := rfl
@[simp] theorem State.setChan_host (s : State) (g : Nat) (v : Chan) : (s.setChan g v).host = s.host := rfl
@[simp] theorem State.setChan_links (s : State) (g : Nat) (v : Chan) : (s.setChan g v).links = s.links := rfl
@[simp] theorem State.setChan_rawRx (s : State) (g : Nat) (v : Chan) : (s.setChan g v).rawRx = s.rawRx := rfl
@[simp] theorem State.setChan_clk (s : State) (g : Nat) (v : Chan) : (s.setChan g v).clk = s.clk := rfl
@[simp] theorem State.setChan_pwr (s : State) (g : Nat) (v : Chan) : (s.setChan g v).pwr = s.pwr := rfl
@[simp] theorem State.setChan_stackTemps (s : State) (g : Nat) (v : Chan) : (s.setChan g v).stackTemps = s.stackTemps := rfl
@[simp] theorem State.setChan_arrs (s : State) (g : Nat) (v : Chan) : (s.setChan g v).arrs = s.arrs := rfl
@[simp] theorem State.setChan_glue (s : State) (g : Nat) (v : Chan) : (s.setChan g v).glue = s.glue := rfl
@[simp] theorem State.setChan_caps (s : State) (g : Nat) (v : Chan) : (s.setChan g v).caps = s.caps := rfl
@[simp] theorem State.setChan_trace (s : State) (g : Nat) (v : Chan) : (s.setChan g v).trace = s.trace := rfl
@[simp] theorem State.setChan_tap (s : State) (g : Nat) (v : Chan) : (s.setChan g v).tap = s.tap := rfl
@[simp] theorem State.setChan_casc (s : State) (g : Nat) (v : Chan) : (s.setChan g v).casc = s.casc := rfl
@[simp] theorem State.setChan_engine (s : State) (g : Nat) (v : Chan) : (s.setChan g v).engine = s.engine := rfl
@[simp] theorem State.setChan_mci (s : State) (g : Nat) (v : Chan) : (s.setChan g v).mci = s.mci := rfl
@[simp] theorem State.setChan_ketch (s : State) (g : Nat) (v : Chan) : (s.setChan g v).ketch = s.ketch := rfl
@[simp] theorem State.setChan_health (s : State) (g : Nat) (v : Chan) : (s.setChan g v).health = s.health := rfl
@[simp] theorem State.setChan_sec (s : State) (g : Nat) (v : Chan) : (s.setChan g v).sec = s.sec := rfl

/- setArr -/

@[simp] theorem State.setArr_pending (s : State) (t : Nat) (v : Arr) : (s.setArr t v).pending = s.pending := rfl
@[simp] theorem State.setArr_part (s : State) (t : Nat) (v : Arr) : (s.setArr t v).part = s.part := rfl
@[simp] theorem State.setArr_tb (s : State) (t : Nat) (v : Arr) : (s.setArr t v).tb = s.tb := rfl
@[simp] theorem State.setArr_refcnt (s : State) (t : Nat) (v : Arr) : (s.setArr t v).refcnt = s.refcnt := rfl
@[simp] theorem State.setArr_free (s : State) (t : Nat) (v : Arr) : (s.setArr t v).free = s.free := rfl
@[simp] theorem State.setArr_mem (s : State) (t : Nat) (v : Arr) : (s.setArr t v).mem = s.mem := rfl
@[simp] theorem State.setArr_ecc (s : State) (t : Nat) (v : Arr) : (s.setArr t v).ecc = s.ecc := rfl
@[simp] theorem State.setArr_defects (s : State) (t : Nat) (v : Arr) : (s.setArr t v).defects = s.defects := rfl
@[simp] theorem State.setArr_transients (s : State) (t : Nat) (v : Arr) : (s.setArr t v).transients = s.transients := rfl
@[simp] theorem State.setArr_regs (s : State) (t : Nat) (v : Arr) : (s.setArr t v).regs = s.regs := rfl
@[simp] theorem State.setArr_clus (s : State) (t : Nat) (v : Arr) : (s.setArr t v).clus = s.clus := rfl
@[simp] theorem State.setArr_rgns (s : State) (t : Nat) (v : Arr) : (s.setArr t v).rgns = s.rgns := rfl
@[simp] theorem State.setArr_sws (s : State) (t : Nat) (v : Arr) : (s.setArr t v).sws = s.sws := rfl
@[simp] theorem State.setArr_brs (s : State) (t : Nat) (v : Arr) : (s.setArr t v).brs = s.brs := rfl
@[simp] theorem State.setArr_noc (s : State) (t : Nat) (v : Arr) : (s.setArr t v).noc = s.noc := rfl
@[simp] theorem State.setArr_banks (s : State) (t : Nat) (v : Arr) : (s.setArr t v).banks = s.banks := rfl
@[simp] theorem State.setArr_chans (s : State) (t : Nat) (v : Arr) : (s.setArr t v).chans = s.chans := rfl
@[simp] theorem State.setArr_raised (s : State) (t : Nat) (v : Arr) : (s.setArr t v).raised = s.raised := rfl
@[simp] theorem State.setArr_events (s : State) (t : Nat) (v : Arr) : (s.setArr t v).events = s.events := rfl
@[simp] theorem State.setArr_host (s : State) (t : Nat) (v : Arr) : (s.setArr t v).host = s.host := rfl
@[simp] theorem State.setArr_links (s : State) (t : Nat) (v : Arr) : (s.setArr t v).links = s.links := rfl
@[simp] theorem State.setArr_rawRx (s : State) (t : Nat) (v : Arr) : (s.setArr t v).rawRx = s.rawRx := rfl
@[simp] theorem State.setArr_clk (s : State) (t : Nat) (v : Arr) : (s.setArr t v).clk = s.clk := rfl
@[simp] theorem State.setArr_pwr (s : State) (t : Nat) (v : Arr) : (s.setArr t v).pwr = s.pwr := rfl
@[simp] theorem State.setArr_stackTemps (s : State) (t : Nat) (v : Arr) : (s.setArr t v).stackTemps = s.stackTemps := rfl
@[simp] theorem State.setArr_glue (s : State) (t : Nat) (v : Arr) : (s.setArr t v).glue = s.glue := rfl
@[simp] theorem State.setArr_caps (s : State) (t : Nat) (v : Arr) : (s.setArr t v).caps = s.caps := rfl
@[simp] theorem State.setArr_trace (s : State) (t : Nat) (v : Arr) : (s.setArr t v).trace = s.trace := rfl
@[simp] theorem State.setArr_tap (s : State) (t : Nat) (v : Arr) : (s.setArr t v).tap = s.tap := rfl
@[simp] theorem State.setArr_casc (s : State) (t : Nat) (v : Arr) : (s.setArr t v).casc = s.casc := rfl
@[simp] theorem State.setArr_engine (s : State) (t : Nat) (v : Arr) : (s.setArr t v).engine = s.engine := rfl
@[simp] theorem State.setArr_mci (s : State) (t : Nat) (v : Arr) : (s.setArr t v).mci = s.mci := rfl
@[simp] theorem State.setArr_ketch (s : State) (t : Nat) (v : Arr) : (s.setArr t v).ketch = s.ketch := rfl
@[simp] theorem State.setArr_health (s : State) (t : Nat) (v : Arr) : (s.setArr t v).health = s.health := rfl
@[simp] theorem State.setArr_sec (s : State) (t : Nat) (v : Arr) : (s.setArr t v).sec = s.sec := rfl

/- setCap -/

@[simp] theorem State.setCap_pending (s : State) (t : Nat) (v : Cap) : (s.setCap t v).pending = s.pending := rfl
@[simp] theorem State.setCap_part (s : State) (t : Nat) (v : Cap) : (s.setCap t v).part = s.part := rfl
@[simp] theorem State.setCap_tb (s : State) (t : Nat) (v : Cap) : (s.setCap t v).tb = s.tb := rfl
@[simp] theorem State.setCap_refcnt (s : State) (t : Nat) (v : Cap) : (s.setCap t v).refcnt = s.refcnt := rfl
@[simp] theorem State.setCap_free (s : State) (t : Nat) (v : Cap) : (s.setCap t v).free = s.free := rfl
@[simp] theorem State.setCap_mem (s : State) (t : Nat) (v : Cap) : (s.setCap t v).mem = s.mem := rfl
@[simp] theorem State.setCap_ecc (s : State) (t : Nat) (v : Cap) : (s.setCap t v).ecc = s.ecc := rfl
@[simp] theorem State.setCap_defects (s : State) (t : Nat) (v : Cap) : (s.setCap t v).defects = s.defects := rfl
@[simp] theorem State.setCap_transients (s : State) (t : Nat) (v : Cap) : (s.setCap t v).transients = s.transients := rfl
@[simp] theorem State.setCap_regs (s : State) (t : Nat) (v : Cap) : (s.setCap t v).regs = s.regs := rfl
@[simp] theorem State.setCap_clus (s : State) (t : Nat) (v : Cap) : (s.setCap t v).clus = s.clus := rfl
@[simp] theorem State.setCap_rgns (s : State) (t : Nat) (v : Cap) : (s.setCap t v).rgns = s.rgns := rfl
@[simp] theorem State.setCap_sws (s : State) (t : Nat) (v : Cap) : (s.setCap t v).sws = s.sws := rfl
@[simp] theorem State.setCap_brs (s : State) (t : Nat) (v : Cap) : (s.setCap t v).brs = s.brs := rfl
@[simp] theorem State.setCap_noc (s : State) (t : Nat) (v : Cap) : (s.setCap t v).noc = s.noc := rfl
@[simp] theorem State.setCap_banks (s : State) (t : Nat) (v : Cap) : (s.setCap t v).banks = s.banks := rfl
@[simp] theorem State.setCap_chans (s : State) (t : Nat) (v : Cap) : (s.setCap t v).chans = s.chans := rfl
@[simp] theorem State.setCap_raised (s : State) (t : Nat) (v : Cap) : (s.setCap t v).raised = s.raised := rfl
@[simp] theorem State.setCap_events (s : State) (t : Nat) (v : Cap) : (s.setCap t v).events = s.events := rfl
@[simp] theorem State.setCap_host (s : State) (t : Nat) (v : Cap) : (s.setCap t v).host = s.host := rfl
@[simp] theorem State.setCap_links (s : State) (t : Nat) (v : Cap) : (s.setCap t v).links = s.links := rfl
@[simp] theorem State.setCap_rawRx (s : State) (t : Nat) (v : Cap) : (s.setCap t v).rawRx = s.rawRx := rfl
@[simp] theorem State.setCap_clk (s : State) (t : Nat) (v : Cap) : (s.setCap t v).clk = s.clk := rfl
@[simp] theorem State.setCap_pwr (s : State) (t : Nat) (v : Cap) : (s.setCap t v).pwr = s.pwr := rfl
@[simp] theorem State.setCap_stackTemps (s : State) (t : Nat) (v : Cap) : (s.setCap t v).stackTemps = s.stackTemps := rfl
@[simp] theorem State.setCap_arrs (s : State) (t : Nat) (v : Cap) : (s.setCap t v).arrs = s.arrs := rfl
@[simp] theorem State.setCap_glue (s : State) (t : Nat) (v : Cap) : (s.setCap t v).glue = s.glue := rfl
@[simp] theorem State.setCap_trace (s : State) (t : Nat) (v : Cap) : (s.setCap t v).trace = s.trace := rfl
@[simp] theorem State.setCap_tap (s : State) (t : Nat) (v : Cap) : (s.setCap t v).tap = s.tap := rfl
@[simp] theorem State.setCap_casc (s : State) (t : Nat) (v : Cap) : (s.setCap t v).casc = s.casc := rfl
@[simp] theorem State.setCap_engine (s : State) (t : Nat) (v : Cap) : (s.setCap t v).engine = s.engine := rfl
@[simp] theorem State.setCap_mci (s : State) (t : Nat) (v : Cap) : (s.setCap t v).mci = s.mci := rfl
@[simp] theorem State.setCap_ketch (s : State) (t : Nat) (v : Cap) : (s.setCap t v).ketch = s.ketch := rfl
@[simp] theorem State.setCap_health (s : State) (t : Nat) (v : Cap) : (s.setCap t v).health = s.health := rfl
@[simp] theorem State.setCap_sec (s : State) (t : Nat) (v : Cap) : (s.setCap t v).sec = s.sec := rfl

/- setLink -/

@[simp] theorem State.setLink_pending (s : State) (n : Nat) (v : Link) : (s.setLink n v).pending = s.pending := rfl
@[simp] theorem State.setLink_part (s : State) (n : Nat) (v : Link) : (s.setLink n v).part = s.part := rfl
@[simp] theorem State.setLink_tb (s : State) (n : Nat) (v : Link) : (s.setLink n v).tb = s.tb := rfl
@[simp] theorem State.setLink_refcnt (s : State) (n : Nat) (v : Link) : (s.setLink n v).refcnt = s.refcnt := rfl
@[simp] theorem State.setLink_free (s : State) (n : Nat) (v : Link) : (s.setLink n v).free = s.free := rfl
@[simp] theorem State.setLink_mem (s : State) (n : Nat) (v : Link) : (s.setLink n v).mem = s.mem := rfl
@[simp] theorem State.setLink_ecc (s : State) (n : Nat) (v : Link) : (s.setLink n v).ecc = s.ecc := rfl
@[simp] theorem State.setLink_defects (s : State) (n : Nat) (v : Link) : (s.setLink n v).defects = s.defects := rfl
@[simp] theorem State.setLink_transients (s : State) (n : Nat) (v : Link) : (s.setLink n v).transients = s.transients := rfl
@[simp] theorem State.setLink_regs (s : State) (n : Nat) (v : Link) : (s.setLink n v).regs = s.regs := rfl
@[simp] theorem State.setLink_clus (s : State) (n : Nat) (v : Link) : (s.setLink n v).clus = s.clus := rfl
@[simp] theorem State.setLink_rgns (s : State) (n : Nat) (v : Link) : (s.setLink n v).rgns = s.rgns := rfl
@[simp] theorem State.setLink_sws (s : State) (n : Nat) (v : Link) : (s.setLink n v).sws = s.sws := rfl
@[simp] theorem State.setLink_brs (s : State) (n : Nat) (v : Link) : (s.setLink n v).brs = s.brs := rfl
@[simp] theorem State.setLink_noc (s : State) (n : Nat) (v : Link) : (s.setLink n v).noc = s.noc := rfl
@[simp] theorem State.setLink_banks (s : State) (n : Nat) (v : Link) : (s.setLink n v).banks = s.banks := rfl
@[simp] theorem State.setLink_chans (s : State) (n : Nat) (v : Link) : (s.setLink n v).chans = s.chans := rfl
@[simp] theorem State.setLink_raised (s : State) (n : Nat) (v : Link) : (s.setLink n v).raised = s.raised := rfl
@[simp] theorem State.setLink_events (s : State) (n : Nat) (v : Link) : (s.setLink n v).events = s.events := rfl
@[simp] theorem State.setLink_host (s : State) (n : Nat) (v : Link) : (s.setLink n v).host = s.host := rfl
@[simp] theorem State.setLink_rawRx (s : State) (n : Nat) (v : Link) : (s.setLink n v).rawRx = s.rawRx := rfl
@[simp] theorem State.setLink_clk (s : State) (n : Nat) (v : Link) : (s.setLink n v).clk = s.clk := rfl
@[simp] theorem State.setLink_pwr (s : State) (n : Nat) (v : Link) : (s.setLink n v).pwr = s.pwr := rfl
@[simp] theorem State.setLink_stackTemps (s : State) (n : Nat) (v : Link) : (s.setLink n v).stackTemps = s.stackTemps := rfl
@[simp] theorem State.setLink_arrs (s : State) (n : Nat) (v : Link) : (s.setLink n v).arrs = s.arrs := rfl
@[simp] theorem State.setLink_glue (s : State) (n : Nat) (v : Link) : (s.setLink n v).glue = s.glue := rfl
@[simp] theorem State.setLink_caps (s : State) (n : Nat) (v : Link) : (s.setLink n v).caps = s.caps := rfl
@[simp] theorem State.setLink_trace (s : State) (n : Nat) (v : Link) : (s.setLink n v).trace = s.trace := rfl
@[simp] theorem State.setLink_tap (s : State) (n : Nat) (v : Link) : (s.setLink n v).tap = s.tap := rfl
@[simp] theorem State.setLink_casc (s : State) (n : Nat) (v : Link) : (s.setLink n v).casc = s.casc := rfl
@[simp] theorem State.setLink_engine (s : State) (n : Nat) (v : Link) : (s.setLink n v).engine = s.engine := rfl
@[simp] theorem State.setLink_mci (s : State) (n : Nat) (v : Link) : (s.setLink n v).mci = s.mci := rfl
@[simp] theorem State.setLink_ketch (s : State) (n : Nat) (v : Link) : (s.setLink n v).ketch = s.ketch := rfl
@[simp] theorem State.setLink_health (s : State) (n : Nat) (v : Link) : (s.setLink n v).health = s.health := rfl
@[simp] theorem State.setLink_sec (s : State) (n : Nat) (v : Link) : (s.setLink n v).sec = s.sec := rfl

/- setClaim -/

@[simp] theorem State.setClaim_pending (s : State) (kind i holder : Nat) : (s.setClaim kind i holder).pending = s.pending := rfl
@[simp] theorem State.setClaim_part (s : State) (kind i holder : Nat) : (s.setClaim kind i holder).part = s.part := rfl
@[simp] theorem State.setClaim_tb (s : State) (kind i holder : Nat) : (s.setClaim kind i holder).tb = s.tb := rfl
@[simp] theorem State.setClaim_refcnt (s : State) (kind i holder : Nat) : (s.setClaim kind i holder).refcnt = s.refcnt := rfl
@[simp] theorem State.setClaim_free (s : State) (kind i holder : Nat) : (s.setClaim kind i holder).free = s.free := rfl
@[simp] theorem State.setClaim_mem (s : State) (kind i holder : Nat) : (s.setClaim kind i holder).mem = s.mem := rfl
@[simp] theorem State.setClaim_ecc (s : State) (kind i holder : Nat) : (s.setClaim kind i holder).ecc = s.ecc := rfl
@[simp] theorem State.setClaim_defects (s : State) (kind i holder : Nat) : (s.setClaim kind i holder).defects = s.defects := rfl
@[simp] theorem State.setClaim_transients (s : State) (kind i holder : Nat) : (s.setClaim kind i holder).transients = s.transients := rfl
@[simp] theorem State.setClaim_regs (s : State) (kind i holder : Nat) : (s.setClaim kind i holder).regs = s.regs := rfl
@[simp] theorem State.setClaim_clus (s : State) (kind i holder : Nat) : (s.setClaim kind i holder).clus = s.clus := rfl
@[simp] theorem State.setClaim_rgns (s : State) (kind i holder : Nat) : (s.setClaim kind i holder).rgns = s.rgns := rfl
@[simp] theorem State.setClaim_sws (s : State) (kind i holder : Nat) : (s.setClaim kind i holder).sws = s.sws := rfl
@[simp] theorem State.setClaim_brs (s : State) (kind i holder : Nat) : (s.setClaim kind i holder).brs = s.brs := rfl
@[simp] theorem State.setClaim_noc (s : State) (kind i holder : Nat) : (s.setClaim kind i holder).noc = s.noc := rfl
@[simp] theorem State.setClaim_banks (s : State) (kind i holder : Nat) : (s.setClaim kind i holder).banks = s.banks := rfl
@[simp] theorem State.setClaim_chans (s : State) (kind i holder : Nat) : (s.setClaim kind i holder).chans = s.chans := rfl
@[simp] theorem State.setClaim_raised (s : State) (kind i holder : Nat) : (s.setClaim kind i holder).raised = s.raised := rfl
@[simp] theorem State.setClaim_events (s : State) (kind i holder : Nat) : (s.setClaim kind i holder).events = s.events := rfl
@[simp] theorem State.setClaim_host (s : State) (kind i holder : Nat) : (s.setClaim kind i holder).host = s.host := rfl
@[simp] theorem State.setClaim_links (s : State) (kind i holder : Nat) : (s.setClaim kind i holder).links = s.links := rfl
@[simp] theorem State.setClaim_rawRx (s : State) (kind i holder : Nat) : (s.setClaim kind i holder).rawRx = s.rawRx := rfl
@[simp] theorem State.setClaim_clk (s : State) (kind i holder : Nat) : (s.setClaim kind i holder).clk = s.clk := rfl
@[simp] theorem State.setClaim_pwr (s : State) (kind i holder : Nat) : (s.setClaim kind i holder).pwr = s.pwr := rfl
@[simp] theorem State.setClaim_stackTemps (s : State) (kind i holder : Nat) : (s.setClaim kind i holder).stackTemps = s.stackTemps := rfl
@[simp] theorem State.setClaim_arrs (s : State) (kind i holder : Nat) : (s.setClaim kind i holder).arrs = s.arrs := rfl
@[simp] theorem State.setClaim_glue (s : State) (kind i holder : Nat) : (s.setClaim kind i holder).glue = s.glue := rfl
@[simp] theorem State.setClaim_caps (s : State) (kind i holder : Nat) : (s.setClaim kind i holder).caps = s.caps := rfl
@[simp] theorem State.setClaim_trace (s : State) (kind i holder : Nat) : (s.setClaim kind i holder).trace = s.trace := rfl
@[simp] theorem State.setClaim_tap (s : State) (kind i holder : Nat) : (s.setClaim kind i holder).tap = s.tap := rfl
@[simp] theorem State.setClaim_casc (s : State) (kind i holder : Nat) : (s.setClaim kind i holder).casc = s.casc := rfl
@[simp] theorem State.setClaim_engine (s : State) (kind i holder : Nat) : (s.setClaim kind i holder).engine = s.engine := rfl
@[simp] theorem State.setClaim_ketch (s : State) (kind i holder : Nat) : (s.setClaim kind i holder).ketch = s.ketch := rfl
@[simp] theorem State.setClaim_health (s : State) (kind i holder : Nat) : (s.setClaim kind i holder).health = s.health := rfl
@[simp] theorem State.setClaim_sec (s : State) (kind i holder : Nat) : (s.setClaim kind i holder).sec = s.sec := rfl

/- draw -/

@[simp] theorem State.draw_pending (s : State) : (s.draw).pending = s.pending := rfl
@[simp] theorem State.draw_part (s : State) : (s.draw).part = s.part := rfl
@[simp] theorem State.draw_tb (s : State) : (s.draw).tb = s.tb := rfl
@[simp] theorem State.draw_refcnt (s : State) : (s.draw).refcnt = s.refcnt := rfl
@[simp] theorem State.draw_mem (s : State) : (s.draw).mem = s.mem := rfl
@[simp] theorem State.draw_ecc (s : State) : (s.draw).ecc = s.ecc := rfl
@[simp] theorem State.draw_defects (s : State) : (s.draw).defects = s.defects := rfl
@[simp] theorem State.draw_transients (s : State) : (s.draw).transients = s.transients := rfl
@[simp] theorem State.draw_regs (s : State) : (s.draw).regs = s.regs := rfl
@[simp] theorem State.draw_clus (s : State) : (s.draw).clus = s.clus := rfl
@[simp] theorem State.draw_rgns (s : State) : (s.draw).rgns = s.rgns := rfl
@[simp] theorem State.draw_sws (s : State) : (s.draw).sws = s.sws := rfl
@[simp] theorem State.draw_brs (s : State) : (s.draw).brs = s.brs := rfl
@[simp] theorem State.draw_noc (s : State) : (s.draw).noc = s.noc := rfl
@[simp] theorem State.draw_banks (s : State) : (s.draw).banks = s.banks := rfl
@[simp] theorem State.draw_chans (s : State) : (s.draw).chans = s.chans := rfl
@[simp] theorem State.draw_raised (s : State) : (s.draw).raised = s.raised := rfl
@[simp] theorem State.draw_events (s : State) : (s.draw).events = s.events := rfl
@[simp] theorem State.draw_host (s : State) : (s.draw).host = s.host := rfl
@[simp] theorem State.draw_links (s : State) : (s.draw).links = s.links := rfl
@[simp] theorem State.draw_rawRx (s : State) : (s.draw).rawRx = s.rawRx := rfl
@[simp] theorem State.draw_clk (s : State) : (s.draw).clk = s.clk := rfl
@[simp] theorem State.draw_pwr (s : State) : (s.draw).pwr = s.pwr := rfl
@[simp] theorem State.draw_stackTemps (s : State) : (s.draw).stackTemps = s.stackTemps := rfl
@[simp] theorem State.draw_arrs (s : State) : (s.draw).arrs = s.arrs := rfl
@[simp] theorem State.draw_glue (s : State) : (s.draw).glue = s.glue := rfl
@[simp] theorem State.draw_caps (s : State) : (s.draw).caps = s.caps := rfl
@[simp] theorem State.draw_trace (s : State) : (s.draw).trace = s.trace := rfl
@[simp] theorem State.draw_tap (s : State) : (s.draw).tap = s.tap := rfl
@[simp] theorem State.draw_casc (s : State) : (s.draw).casc = s.casc := rfl
@[simp] theorem State.draw_engine (s : State) : (s.draw).engine = s.engine := rfl
@[simp] theorem State.draw_mci (s : State) : (s.draw).mci = s.mci := rfl
@[simp] theorem State.draw_ketch (s : State) : (s.draw).ketch = s.ketch := rfl
@[simp] theorem State.draw_health (s : State) : (s.draw).health = s.health := rfl
@[simp] theorem State.draw_sec (s : State) : (s.draw).sec = s.sec := rfl

/- What a written register, byte or unit reads as. -/

@[simp] theorem State.reg_setReg_same (s : State) (a : Nat) (v : W64) : (s.setReg a v).reg a = v := by
  simp [State.reg, State.setReg]

theorem State.reg_setReg (s : State) (a b : Nat) (v : W64) : (s.setReg a v).reg b = if b = a then v else s.reg b := by
  simp [State.reg, State.setReg, mapGet_set]

theorem State.reg_setReg_other (s : State) (a b : Nat) (v : W64) (h : b ≠ a) : (s.setReg a v).reg b = s.reg b := by
  simp [State.reg_setReg, h]

theorem State.reg_setFld_other (s : State) (a lo w x b : Nat) (h : b ≠ a) : (s.setFld a lo w x).reg b = s.reg b :=
  s.reg_setReg_other a b _ h

theorem State.reg_setBit_other (s : State) (a i : Nat) (v : Bool) (b : Nat) (h : b ≠ a) : (s.setBit a i v).reg b = s.reg b :=
  s.reg_setReg_other a b _ h

theorem State.reg_count_other (s : State) (a lo w k b : Nat) (h : b ≠ a) : (s.count a lo w k).reg b = s.reg b :=
  s.reg_setReg_other a b _ h

/-- A byte after a write of memory. -/
theorem State.byte_putMem (s : State) (a : Nat) (bs : List Byte) (k : Nat) :
    (s.putMem a bs).byte k = if a ≤ k ∧ k < a + bs.length then bs.getD (k - a) 0 else s.byte k :=
  mapGet_putBytes (memDefault s.part) s.mem a bs k

/-- A byte outside the bytes written reads as before. -/
theorem State.byte_putMem_other (s : State) (a : Nat) (bs : List Byte) (k : Nat) (h : k < a ∨ a + bs.length ≤ k) :
    (s.putMem a bs).byte k = s.byte k :=
  mapGet_putBytes_other (memDefault s.part) s.mem a bs k h

@[simp] theorem State.clu_setClu_same (s : State) (k : Nat) (v : Clu) : (s.setClu k v).clu k = v := by
  simp [State.clu, State.setClu]

theorem State.clu_setClu_other (s : State) (k j : Nat) (v : Clu) (h : j ≠ k) : (s.setClu k v).clu j = s.clu j := by
  simp [State.clu, State.setClu, mapGet_set, h]

@[simp] theorem State.rgn_setRgn_same (s : State) (k : Nat) (v : Rgn) : (s.setRgn k v).rgn k = v := by
  simp [State.rgn, State.setRgn]

theorem State.rgn_setRgn_other (s : State) (k j : Nat) (v : Rgn) (h : j ≠ k) : (s.setRgn k v).rgn j = s.rgn j := by
  simp [State.rgn, State.setRgn, mapGet_set, h]

@[simp] theorem State.sw_setSw_same (s : State) (k : Nat) (v : Sw) : (s.setSw k v).sw k = v := by
  simp [State.sw, State.setSw]

theorem State.sw_setSw_other (s : State) (k j : Nat) (v : Sw) (h : j ≠ k) : (s.setSw k v).sw j = s.sw j := by
  simp [State.sw, State.setSw, mapGet_set, h]

@[simp] theorem State.br_setBr_same (s : State) (k : Nat) (v : Br) : (s.setBr k v).br k = v := by
  simp [State.br, State.setBr]

theorem State.br_setBr_other (s : State) (k j : Nat) (v : Br) (h : j ≠ k) : (s.setBr k v).br j = s.br j := by
  simp [State.br, State.setBr, mapGet_set, h]

@[simp] theorem State.bank_setBank_same (s : State) (k : Nat) (v : Bank) : (s.setBank k v).bank k = v := by
  simp [State.bank, State.setBank]

theorem State.bank_setBank_other (s : State) (k j : Nat) (v : Bank) (h : j ≠ k) : (s.setBank k v).bank j = s.bank j := by
  simp [State.bank, State.setBank, mapGet_set, h]

@[simp] theorem State.chan_setChan_same (s : State) (k : Nat) (v : Chan) : (s.setChan k v).chan k = v := by
  simp [State.chan, State.setChan]

theorem State.chan_setChan_other (s : State) (k j : Nat) (v : Chan) (h : j ≠ k) : (s.setChan k v).chan j = s.chan j := by
  simp [State.chan, State.setChan, mapGet_set, h]

@[simp] theorem State.arr_setArr_same (s : State) (k : Nat) (v : Arr) : (s.setArr k v).arr k = v := by
  simp [State.arr, State.setArr]

theorem State.arr_setArr_other (s : State) (k j : Nat) (v : Arr) (h : j ≠ k) : (s.setArr k v).arr j = s.arr j := by
  simp [State.arr, State.setArr, mapGet_set, h]

@[simp] theorem State.cap_setCap_same (s : State) (k : Nat) (v : Cap) : (s.setCap k v).cap k = v := by
  simp [State.cap, State.setCap]

theorem State.cap_setCap_other (s : State) (k j : Nat) (v : Cap) (h : j ≠ k) : (s.setCap k v).cap j = s.cap j := by
  simp [State.cap, State.setCap, mapGet_set, h]

@[simp] theorem State.link_setLink_same (s : State) (k : Nat) (v : Link) : (s.setLink k v).link k = v := by
  simp [State.link, State.setLink]

theorem State.link_setLink_other (s : State) (k j : Nat) (v : Link) (h : j ≠ k) : (s.setLink k v).link j = s.link j := by
  simp [State.link, State.setLink, mapGet_set, h]

@[simp] theorem State.putMem_reg (s : State) (a : Nat) (bs : List Byte) (r : Nat) : (s.putMem a bs).reg r = s.reg r := rfl
@[simp] theorem State.clearMem_reg (s : State) (a n : Nat) (r : Nat) : (s.clearMem a n).reg r = s.reg r := rfl
@[simp] theorem State.setEcc_reg (s : State) (a v : Nat) (r : Nat) : (s.setEcc a v).reg r = s.reg r := rfl
@[simp] theorem State.setClu_reg (s : State) (k : Nat) (v : Clu) (r : Nat) : (s.setClu k v).reg r = s.reg r := rfl
@[simp] theorem State.setRgn_reg (s : State) (m : Nat) (v : Rgn) (r : Nat) : (s.setRgn m v).reg r = s.reg r := rfl
@[simp] theorem State.setSw_reg (s : State) (t : Nat) (v : Sw) (r : Nat) : (s.setSw t v).reg r = s.reg r := rfl
@[simp] theorem State.setBr_reg (s : State) (m : Nat) (v : Br) (r : Nat) : (s.setBr m v).reg r = s.reg r := rfl
@[simp] theorem State.setBank_reg (s : State) (k : Nat) (v : Bank) (r : Nat) : (s.setBank k v).reg r = s.reg r := rfl
@[simp] theorem State.setChan_reg (s : State) (g : Nat) (v : Chan) (r : Nat) : (s.setChan g v).reg r = s.reg r := rfl
@[simp] theorem State.setArr_reg (s : State) (t : Nat) (v : Arr) (r : Nat) : (s.setArr t v).reg r = s.reg r := rfl
@[simp] theorem State.setCap_reg (s : State) (t : Nat) (v : Cap) (r : Nat) : (s.setCap t v).reg r = s.reg r := rfl
@[simp] theorem State.setLink_reg (s : State) (n : Nat) (v : Link) (r : Nat) : (s.setLink n v).reg r = s.reg r := rfl
@[simp] theorem State.setClaim_reg (s : State) (kind i holder : Nat) (r : Nat) : (s.setClaim kind i holder).reg r = s.reg r := rfl
@[simp] theorem State.draw_reg (s : State) (r : Nat) : (s.draw).reg r = s.reg r := rfl

end Sys2Proof.Machine
end

