-- ==== Sys2Proof/Laws/Mci.lean ====
section
/-! SUPPORT. What the command interface does with a command that the firmware takes. -/

namespace Sys2Proof.Machine

/-- An activity of a part that runs answers a next state. -/
theorem act_up (s : State) (f : State → State) (h : s.up) : s.act f = .next (f s) := by
  simp [State.act, h.1, h.2]

@[simp] theorem addCmd_reg (s : State) (c : MciCmd) (a : Nat) : (s.addCmd c).reg a = s.reg a := rfl
@[simp] theorem addCmd_pwr (s : State) (c : MciCmd) : (s.addCmd c).pwr = s.pwr := rfl

@[simp] theorem addCmd_pending (s : State) (c : MciCmd) : (s.addCmd c).pending = s.pending := rfl
@[simp] theorem addCmd_part (s : State) (c : MciCmd) : (s.addCmd c).part = s.part := rfl
@[simp] theorem addCmd_tb (s : State) (c : MciCmd) : (s.addCmd c).tb = s.tb := rfl
@[simp] theorem addCmd_refcnt (s : State) (c : MciCmd) : (s.addCmd c).refcnt = s.refcnt := rfl
@[simp] theorem addCmd_free (s : State) (c : MciCmd) : (s.addCmd c).free = s.free := rfl
@[simp] theorem addCmd_mem (s : State) (c : MciCmd) : (s.addCmd c).mem = s.mem := rfl
@[simp] theorem addCmd_ecc (s : State) (c : MciCmd) : (s.addCmd c).ecc = s.ecc := rfl
@[simp] theorem addCmd_defects (s : State) (c : MciCmd) : (s.addCmd c).defects = s.defects := rfl
@[simp] theorem addCmd_transients (s : State) (c : MciCmd) : (s.addCmd c).transients = s.transients := rfl
@[simp] theorem addCmd_regs (s : State) (c : MciCmd) : (s.addCmd c).regs = s.regs := rfl
@[simp] theorem addCmd_clus (s : State) (c : MciCmd) : (s.addCmd c).clus = s.clus := rfl
@[simp] theorem addCmd_rgns (s : State) (c : MciCmd) : (s.addCmd c).rgns = s.rgns := rfl
@[simp] theorem addCmd_sws (s : State) (c : MciCmd) : (s.addCmd c).sws = s.sws := rfl
@[simp] theorem addCmd_brs (s : State) (c : MciCmd) : (s.addCmd c).brs = s.brs := rfl
@[simp] theorem addCmd_noc (s : State) (c : MciCmd) : (s.addCmd c).noc = s.noc := rfl
@[simp] theorem addCmd_banks (s : State) (c : MciCmd) : (s.addCmd c).banks = s.banks := rfl
@[simp] theorem addCmd_chans (s : State) (c : MciCmd) : (s.addCmd c).chans = s.chans := rfl
@[simp] theorem addCmd_raised (s : State) (c : MciCmd) : (s.addCmd c).raised = s.raised := rfl
@[simp] theorem addCmd_events (s : State) (c : MciCmd) : (s.addCmd c).events = s.events := rfl
@[simp] theorem addCmd_host (s : State) (c : MciCmd) : (s.addCmd c).host = s.host := rfl
@[simp] theorem addCmd_links (s : State) (c : MciCmd) : (s.addCmd c).links = s.links := rfl
@[simp] theorem addCmd_rawRx (s : State) (c : MciCmd) : (s.addCmd c).rawRx = s.rawRx := rfl
@[simp] theorem addCmd_clk (s : State) (c : MciCmd) : (s.addCmd c).clk = s.clk := rfl
@[simp] theorem addCmd_stackTemps (s : State) (c : MciCmd) : (s.addCmd c).stackTemps = s.stackTemps := rfl
@[simp] theorem addCmd_arrs (s : State) (c : MciCmd) : (s.addCmd c).arrs = s.arrs := rfl
@[simp] theorem addCmd_glue (s : State) (c : MciCmd) : (s.addCmd c).glue = s.glue := rfl
@[simp] theorem addCmd_caps (s : State) (c : MciCmd) : (s.addCmd c).caps = s.caps := rfl
@[simp] theorem addCmd_trace (s : State) (c : MciCmd) : (s.addCmd c).trace = s.trace := rfl
@[simp] theorem addCmd_tap (s : State) (c : MciCmd) : (s.addCmd c).tap = s.tap := rfl
@[simp] theorem addCmd_casc (s : State) (c : MciCmd) : (s.addCmd c).casc = s.casc := rfl
@[simp] theorem addCmd_engine (s : State) (c : MciCmd) : (s.addCmd c).engine = s.engine := rfl
@[simp] theorem addCmd_ketch (s : State) (c : MciCmd) : (s.addCmd c).ketch = s.ketch := rfl
@[simp] theorem addCmd_health (s : State) (c : MciCmd) : (s.addCmd c).health = s.health := rfl
@[simp] theorem addCmd_sec (s : State) (c : MciCmd) : (s.addCmd c).sec = s.sec := rfl

theorem State.putMem_nil (s : State) (a : Nat) : s.putMem a [] = s := rfl

/-- Writing a command into its channel writes memory only. -/
theorem mailed_eq (s : State) (op : Nat) (d : Desc) : ∃ a m, s.mailed op d = (s.putMem (chanBase d.chan) a).putMem (chanBase d.chan + 0x40) m := by
  unfold State.mailed
  by_cases h : descPtr d = true
  · exact ⟨descBytes op d, [], (if_pos h).trans (State.putMem_nil _ _).symm⟩
  · exact ⟨descBytes op d, d.payload.take 4032, by rw [if_neg h]⟩

/-- A command that stands in its channel has touched the channel's page, the BUSY bit and the list of commands. -/
theorem rung_eq (s : State) (op : Nat) (d : Desc) : ∃ a m, s.rung op d =
    ((((s.putMem (chanBase d.chan) a).putMem (chanBase d.chan + 0x40) m).setBit aDbBusy d.chan true).addCmd (entering op d)) := by
  obtain ⟨a, m, h⟩ := mailed_eq s op d
  exact ⟨a, m, h ▸ rfl⟩

theorem rung_reg (s : State) (op : Nat) (d : Desc) (a : Nat) (h : a ≠ aDbBusy) : (s.rung op d).reg a = s.reg a := by
  obtain ⟨x, m, e⟩ := rung_eq s op d
  rw [e, addCmd_reg, State.reg_setBit_other _ _ _ _ _ h, State.putMem_reg, State.putMem_reg]

@[simp] theorem rung_pending (s : State) (op : Nat) (d : Desc) : (s.rung op d).pending = s.pending := by
  obtain ⟨a, m, e⟩ := rung_eq s op d; rw [e]; simp
@[simp] theorem rung_part (s : State) (op : Nat) (d : Desc) : (s.rung op d).part = s.part := by
  obtain ⟨a, m, e⟩ := rung_eq s op d; rw [e]; simp
@[simp] theorem rung_tb (s : State) (op : Nat) (d : Desc) : (s.rung op d).tb = s.tb := by
  obtain ⟨a, m, e⟩ := rung_eq s op d; rw [e]; simp
@[simp] theorem rung_refcnt (s : State) (op : Nat) (d : Desc) : (s.rung op d).refcnt = s.refcnt := by
  obtain ⟨a, m, e⟩ := rung_eq s op d; rw [e]; simp
@[simp] theorem rung_free (s : State) (op : Nat) (d : Desc) : (s.rung op d).free = s.free := by
  obtain ⟨a, m, e⟩ := rung_eq s op d; rw [e]; simp
@[simp] theorem rung_ecc (s : State) (op : Nat) (d : Desc) : (s.rung op d).ecc = s.ecc := by
  obtain ⟨a, m, e⟩ := rung_eq s op d; rw [e]; simp
@[simp] theorem rung_defects (s : State) (op : Nat) (d : Desc) : (s.rung op d).defects = s.defects := by
  obtain ⟨a, m, e⟩ := rung_eq s op d; rw [e]; simp
@[simp] theorem rung_transients (s : State) (op : Nat) (d : Desc) : (s.rung op d).transients = s.transients := by
  obtain ⟨a, m, e⟩ := rung_eq s op d; rw [e]; simp
@[simp] theorem rung_clus (s : State) (op : Nat) (d : Desc) : (s.rung op d).clus = s.clus := by
  obtain ⟨a, m, e⟩ := rung_eq s op d; rw [e]; simp
@[simp] theorem rung_rgns (s : State) (op : Nat) (d : Desc) : (s.rung op d).rgns = s.rgns := by
  obtain ⟨a, m, e⟩ := rung_eq s op d; rw [e]; simp
@[simp] theorem rung_sws (s : State) (op : Nat) (d : Desc) : (s.rung op d).sws = s.sws := by
  obtain ⟨a, m, e⟩ := rung_eq s op d; rw [e]; simp
@[simp] theorem rung_brs (s : State) (op : Nat) (d : Desc) : (s.rung op d).brs = s.brs := by
  obtain ⟨a, m, e⟩ := rung_eq s op d; rw [e]; simp
@[simp] theorem rung_noc (s : State) (op : Nat) (d : Desc) : (s.rung op d).noc = s.noc := by
  obtain ⟨a, m, e⟩ := rung_eq s op d; rw [e]; simp
@[simp] theorem rung_banks (s : State) (op : Nat) (d : Desc) : (s.rung op d).banks = s.banks := by
  obtain ⟨a, m, e⟩ := rung_eq s op d; rw [e]; simp
@[simp] theorem rung_chans (s : State) (op : Nat) (d : Desc) : (s.rung op d).chans = s.chans := by
  obtain ⟨a, m, e⟩ := rung_eq s op d; rw [e]; simp
@[simp] theorem rung_raised (s : State) (op : Nat) (d : Desc) : (s.rung op d).raised = s.raised := by
  obtain ⟨a, m, e⟩ := rung_eq s op d; rw [e]; simp
@[simp] theorem rung_events (s : State) (op : Nat) (d : Desc) : (s.rung op d).events = s.events := by
  obtain ⟨a, m, e⟩ := rung_eq s op d; rw [e]; simp
@[simp] theorem rung_host (s : State) (op : Nat) (d : Desc) : (s.rung op d).host = s.host := by
  obtain ⟨a, m, e⟩ := rung_eq s op d; rw [e]; simp
@[simp] theorem rung_links (s : State) (op : Nat) (d : Desc) : (s.rung op d).links = s.links := by
  obtain ⟨a, m, e⟩ := rung_eq s op d; rw [e]; simp
@[simp] theorem rung_rawRx (s : State) (op : Nat) (d : Desc) : (s.rung op d).rawRx = s.rawRx := by
  obtain ⟨a, m, e⟩ := rung_eq s op d; rw [e]; simp
@[simp] theorem rung_clk (s : State) (op : Nat) (d : Desc) : (s.rung op d).clk = s.clk := by
  obtain ⟨a, m, e⟩ := rung_eq s op d; rw [e]; simp
@[simp] theorem rung_pwr (s : State) (op : Nat) (d : Desc) : (s.rung op d).pwr = s.pwr := by
  obtain ⟨a, m, e⟩ := rung_eq s op d; rw [e]; simp
@[simp] theorem rung_stackTemps (s : State) (op : Nat) (d : Desc) : (s.rung op d).stackTemps = s.stackTemps := by
  obtain ⟨a, m, e⟩ := rung_eq s op d; rw [e]; simp
@[simp] theorem rung_arrs (s : State) (op : Nat) (d : Desc) : (s.rung op d).arrs = s.arrs := by
  obtain ⟨a, m, e⟩ := rung_eq s op d; rw [e]; simp
@[simp] theorem rung_glue (s : State) (op : Nat) (d : Desc) : (s.rung op d).glue = s.glue := by
  obtain ⟨a, m, e⟩ := rung_eq s op d; rw [e]; simp
@[simp] theorem rung_caps (s : State) (op : Nat) (d : Desc) : (s.rung op d).caps = s.caps := by
  obtain ⟨a, m, e⟩ := rung_eq s op d; rw [e]; simp
@[simp] theorem rung_trace (s : State) (op : Nat) (d : Desc) : (s.rung op d).trace = s.trace := by
  obtain ⟨a, m, e⟩ := rung_eq s op d; rw [e]; simp
@[simp] theorem rung_tap (s : State) (op : Nat) (d : Desc) : (s.rung op d).tap = s.tap := by
  obtain ⟨a, m, e⟩ := rung_eq s op d; rw [e]; simp
@[simp] theorem rung_casc (s : State) (op : Nat) (d : Desc) : (s.rung op d).casc = s.casc := by
  obtain ⟨a, m, e⟩ := rung_eq s op d; rw [e]; simp
@[simp] theorem rung_engine (s : State) (op : Nat) (d : Desc) : (s.rung op d).engine = s.engine := by
  obtain ⟨a, m, e⟩ := rung_eq s op d; rw [e]; simp
@[simp] theorem rung_ketch (s : State) (op : Nat) (d : Desc) : (s.rung op d).ketch = s.ketch := by
  obtain ⟨a, m, e⟩ := rung_eq s op d; rw [e]; simp
@[simp] theorem rung_health (s : State) (op : Nat) (d : Desc) : (s.rung op d).health = s.health := by
  obtain ⟨a, m, e⟩ := rung_eq s op d; rw [e]; simp
@[simp] theorem rung_sec (s : State) (op : Nat) (d : Desc) : (s.rung op d).sec = s.sec := by
  obtain ⟨a, m, e⟩ := rung_eq s op d; rw [e]; simp

/-- A command that the firmware takes has its own rule performed; it then completes, or waits. -/
theorem mciHost_takes (s : State) (op : Nat) (d : Desc) (h : s.takes op d) :
    (s.act fun s => s.mciHost op d) = .next
      (let r := (s.rung op d).perform (entering op d)
       match r.2 with
       | .done st res =>
         let s1 := r.1.complete (entering op d) st res
         if op = 0x03 ∧ st = cOk ∧ s1.events.queue.isEmpty = false then s1.msix 16 else s1
       | .wait t => (r.1.retask (entering op d) t).settle) := by
  obtain ⟨hu, hf, hc, hb, hr, hl⟩ := h
  rw [act_up s _ hu]
  congr 1
  unfold State.mciHost
  rw [if_neg (by omega), hb]
  simp only [Bool.false_eq_true, if_false]
  have e : ∀ x : State, x.addCmd (entering op d) = s.rung op d →
      x.beginCmd (entering op d) = (s.rung op d).runCmd (entering op d) := by
    intro x hx
    unfold State.beginCmd
    rw [hx]
    simp only [rung_pwr, hf, entering, Bool.not_true, Bool.false_eq_true, if_false, reduceCtorEq]
  refine (e _ rfl).trans ?_
  unfold State.runCmd
  rw [hr]
  simp only [hl, Bool.false_eq_true, if_false]
  rfl

/-- The same, for a rule that completes with OK. -/
theorem mciHost_done (s : State) (op : Nat) (d : Desc) (h : s.takes op d) (r : State) (res : List Byte)
    (hp : (s.rung op d).perform (entering op d) = (r, .done cOk res)) (h3 : op ≠ 3) :
    (s.act fun s => s.mciHost op d) = .next (r.finish op d res) := by
  rw [mciHost_takes s op d h, hp]; simp [h3, State.finish]

/-- The same, for a rule that waits. -/
theorem mciHost_wait (s : State) (op : Nat) (d : Desc) (h : s.takes op d) (r : State) (t : Task)
    (hp : (s.rung op d).perform (entering op d) = (r, .wait t)) :
    (s.act fun s => s.mciHost op d) = .next (r.await op d t) := by
  rw [mciHost_takes s op d h, hp]; rfl

end Sys2Proof.Machine
end

