-- ==== Sys2Proof/Machine/Package.lean ====
section
/-! DEFINITION. The package (R462 to R466), the rails in the order of RAIL_ID (R469), and what chapter 16 says of the lanes'
power and of the junction's limits (R481, R484). Nothing here is state: these are the places and figures of the part. -/

namespace Sys2Proof.Machine

/- Balls (R462 to R466). -/

/-- The letters that name rows. -/
def rowLetters : List Char :=
  ['A', 'B', 'C', 'D', 'E', 'F', 'G', 'H', 'J', 'K', 'L', 'M', 'N', 'P', 'T', 'U', 'V', 'W', 'Y']

/-- Name of a row, counted from 1 at the south edge (R462). -/
def rowName (row : Nat) : List Char :=
  let i := row - 1
  if i < 19 then [rowLetters.getD i 'A'] else [rowLetters.getD (i / 19 - 1) 'A', rowLetters.getD (i % 19) 'A']

/-- A ball by row and column, both from 1 to 84 (R462). -/
structure Ball where
  row : Nat
  col : Nat
  deriving DecidableEq, Repr

def Ball.wf (b : Ball) : Bool := decide (1 ≤ b.row ∧ b.row ≤ 84 ∧ 1 ≤ b.col ∧ b.col ≤ 84)

/-- The signals of a lane: TXP, TXN, RXP, RXN. -/
inductive LaneSignal where
  | txp | txn | rxp | rxn
  deriving DecidableEq, Repr

/-- Ball of a native lane's signal (R464). -/
def laneBall (n : Nat) (g : LaneSignal) : Ball :=
  let south := match g with | .txp => 2 | .txn => 3 | .rxp => 5 | .rxn => 6
  let north := match g with | .txp => 83 | .txn => 82 | .rxp => 80 | .rxn => 79
  if n < 56 then { row := south, col := 14 + n }
  else if n < 72 then { row := 20 + (n - 56), col := north }
  else if n < 128 then { row := north, col := 14 + (n - 72) }
  else { row := 49 + (n - 128), col := north }

/-- Ball of GPIO pin `p`, 32 × bank + number (R465). -/
def gpioBall (p : Nat) : Ball := { row := 9 + 8 * (p / 32) + p % 8, col := 2 + p % 32 / 8 }

/-- Ball of a host-port lane's signal (R465). -/
def hostBall (i : Nat) (g : LaneSignal) : Ball :=
  { row := (match g with | .txp => 74 | .txn => 75 | .rxp => 77 | .rxn => 78), col := 2 + i }

/-- The system signals (R463), MASTER_N low naming the master (R337). -/
inductive SysSignal where
  | hrefclkP | hrefclkN | cfwdP | cfwdN | csyncIn | csyncOut
  | cascId (i : Fin 4)
  | masterN | ketchAct | tamperN | porstN | perstN | tck | tms | tdi | tdo | uart0Txd | uart0Rxd | i2c0Scl | i2c0Sda | spi0Sck | spi0CsN
  | spi0Io (i : Fin 4)
  deriving DecidableEq, Repr

/-- Ball of a system signal (R466). -/
def sysBall : SysSignal → Ball
  | .hrefclkP => ⟨2, 2⟩ | .hrefclkN => ⟨2, 3⟩ | .cfwdP => ⟨2, 5⟩ | .cfwdN => ⟨2, 6⟩ | .csyncIn => ⟨2, 8⟩ | .csyncOut => ⟨2, 9⟩
  | .cascId i => ⟨4, 2 + i⟩
  | .masterN => ⟨4, 6⟩ | .ketchAct => ⟨4, 7⟩ | .tamperN => ⟨4, 8⟩ | .porstN => ⟨4, 9⟩
  | .perstN => ⟨5, 2⟩ | .tck => ⟨5, 3⟩ | .tms => ⟨5, 4⟩ | .tdi => ⟨5, 5⟩ | .tdo => ⟨5, 6⟩
  | .uart0Txd => ⟨6, 2⟩ | .uart0Rxd => ⟨6, 3⟩ | .i2c0Scl => ⟨6, 4⟩ | .i2c0Sda => ⟨6, 5⟩ | .spi0Sck => ⟨6, 6⟩ | .spi0CsN => ⟨6, 7⟩
  | .spi0Io i => ⟨7, 2 + i⟩

/-- Reserved balls, left unconnected (R466, R467). -/
def reservedBalls : List Ball :=
  ((List.range 8).map fun i => ⟨3, 2 + i⟩) ++ ((List.range 4).map fun i => ⟨7, 6 + i⟩) ++ (List.range 8).map fun i => ⟨8, 2 + i⟩

/-- Balls of VDD_IO18 and VDD_AON (R466). -/
def io18Balls : List Ball := [⟨5, 7⟩, ⟨5, 8⟩, ⟨6, 8⟩, ⟨1, 10⟩, ⟨1, 11⟩, ⟨1, 12⟩, ⟨1, 13⟩]
def aonBalls : List Ball := [⟨5, 9⟩, ⟨6, 9⟩]

/-- Balls of a GPIO bank's supply (R465). -/
def bankBalls (n : Nat) : List Ball := (List.range 8).map fun i => ⟨9 + 8 * n + i, 7⟩

/-- Balls of each group of R463: lanes, host port, GPIO, system, reserved; then the rails of `rails`, the bank supplies, VSS. -/
def ballCounts : List Nat := [576, 32, 256, 29, 20] ++ [1600, 320, 100, 96, 48, 12, 160, 12, 7, 2] ++ [64, 3722]

/- Rails (R469). -/

/-- A rail: nominal voltage in mV, range about it in tenths of a mV, maximum current in mA. -/
structure Rail where
  mV : Nat
  range : Nat
  mA : Nat
  deriving DecidableEq, Repr

/-- The rails in the order of RAIL_ID: VDD_CORE, whose range stands about its set point, VDD_SRAM, VDD_IOD, VDD_SD,
VDD_SDH, VDD_PCIE, VDD_HBM, VPP_HBM, VDD_IO18, VDD_AON. -/
def rails (dram64 : Bool) : List Rail :=
  [⟨750, 200, 620000⟩, ⟨850, 255, 120000⟩, ⟨750, 225, 40000⟩, ⟨900, 270, 30000⟩, ⟨1200, 360, 12000⟩, ⟨900, 270, 3000⟩,
   ⟨1100, 330, if dram64 then 50000 else 35000⟩, ⟨1800, 900, 3000⟩, ⟨1800, 900, 1000⟩, ⟨800, 400, 2⟩]

/-- VDD_CORE lies in its range: within 20 mV of the set point (R384, R469). -/
def State.coreInRange (s : State) (mV : Nat) : Bool :=
  decide (s.fldOf aPwrEst 32 16 ≤ mV + 20 ∧ mV ≤ s.fldOf aPwrEst 32 16 + 20)

/- Lanes' power (R481). -/

/-- Power of a lane in mW from the STATE, RATE, TX_PWR and RX_PWR of its link. -/
def laneMilliwatts (state rate tx rx : Nat) : Nat :=
  if state = 0 then 1
  else if state = 1 then 5
  else if tx = 2 ∧ rx = 2 then 15
  else if tx = 2 ∨ rx = 2 then [85, 135, 150].getD rate 150
  else if tx = 1 ∧ rx = 1 then [55, 75, 80].getD rate 80
  else [150, 240, 270].getD rate 270

/-- Power of native lane `n` in mW. -/
def State.lanePower (s : State) (n : Nat) : Nat :=
  match s.linkAt n with
  | none => 1
  | some k => laneMilliwatts (s.lnState k) (((s.link k).conf.map (·.rate)).getD 0) (s.fldOf (aLnStat k) 4 2) (s.fldOf (aLnStat k) 6 2)

/- Junction temperature (R484). -/

/-- Operating range of the junction in °C: grade E from 0, grade X from −40. -/
def junctionRange (gradeX : Bool) : Int × Int := (if gradeX then -40 else 0, 100)

/-- The highest reading among the tile and I/O die sensors, as a TEMP code (R378, R484). -/
def State.junction (s : State) : Nat := max s.hottest (max s.pwr.ioTemp0 s.pwr.ioTemp1)

/-- The junction is within its operating range. -/
def State.coolEnough (s : State) : Bool :=
  decide (tempCode (junctionRange s.part.gradeX).1 ≤ s.junction ∧ s.junction ≤ tempCode (junctionRange s.part.gradeX).2)

end Sys2Proof.Machine
end

