-- ==== Sys2Proof/WellFormed.lean ====
section
/-! DEFINITION. Which commands are well formed: every operand names a unit, a lane, a position, a length or an address that the
part has. `exec` takes any command; one that names nothing there changes nothing. -/

namespace Sys2Proof

/-- A mailbox command of one of the 16 channels (R391), its payload within 16 MiB (R392). -/
def Desc.wf (d : Desc) : Bool := decide (d.chan < 16 ∧ d.payload.length ≤ 0x100_0000)

/-- A register target on the 48-bit internal map or in BAR0 (R206, R210). -/
def RegTarget.wf : RegTarget → Bool
  | .internal a => decide (a < 2 ^ 48)
  | .bar0 off => decide (off < 0x2_1000)

/-- Node and port of an endpoint (R213). -/
def endpointOk (node port : Nat) : Bool := decide (node < 72 ∧ port < 8)

/-- A request's fields as R217 gives them. -/
def Req.wf (q : Req) : Bool :=
  endpointOk q.dstNode q.dstPort && endpointOk q.srcNode q.srcPort &&
  decide (q.urg < 16 ∧ q.tag < 4096 ∧ 1 ≤ q.len ∧ q.len ≤ 64 ∧ q.dstDev < 16 ∧ q.srcDev < 16 ∧ q.addr < 2 ^ 48)

/-- An RSP packet's fields (R219). -/
def Rsp.wf (p : Rsp) : Bool :=
  endpointOk p.dstNode p.dstPort && decide (p.urg < 16 ∧ p.tag < 4096 ∧ p.status < 8 ∧ p.dstDev < 16 ∧ p.data.length ≤ 8)

/-- A DAT packet's fields (R220). -/
def Dat.wf (p : Dat) : Bool :=
  endpointOk p.dstNode p.dstPort && endpointOk p.srcNode p.srcPort &&
  decide (p.urg < 16 ∧ p.tag < 4096 ∧ p.status < 8 ∧ p.dstDev < 16 ∧ p.srcDev < 16 ∧ p.data.length ≤ 64)

/-- An SNP packet's fields (R220). -/
def Snp.wf (p : Snp) : Bool :=
  endpointOk p.dstNode p.dstPort && decide (p.urg < 16 ∧ p.srcNode < 72 ∧ p.line < 2 ^ 30)

/-- A tamper source: a voltage trip names one of the ten rails (R429). -/
def TamperSource.wf : TamperSource → Bool
  | .volt r => decide (r < 10)
  | .pin => true
  | .temp => true
  | .glitch => true

/-- A unit of the part (R12, R136, R171). -/
def Resource.wf : Resource → Bool
  | .cluster t c => decide (t < 64 ∧ c < 132)
  | .bank t b => decide (t < 64 ∧ b < 16)
  | .array t => decide (t < 64)

/-- A discovery message names a position, a member and a lane (R343, R344). -/
def Discovery.wf (d : Discovery) : Bool := decide (d.pos < 16 ∧ d.member < 3 ∧ d.lane < 144 ∧ d.id < 2 ^ 64 ∧ d.xlat < 4096)

/-- The command names what is there. -/
def Instr.wf : Instr → Bool
  | .identify d | .status d | .eventRead d | .imageBegin d | .imageData d | .imageEnd d | .imageCommit d
  | .imageFromFlash d | .flashWrite d | .start d | .stop d | .run d | .halt d | .step d | .breakSet d
  | .regionFence d | .regionLoad d | .regionResume d | .regionPower d | .captureSet d | .traceSet d | .stateRead d
  | .stateWrite d | .laneSet d | .laneStatus d | .laneTest d | .cascadeForm d | .ketchSet d | .ketchResync d
  | .powerCap d | .reefPolicy d | .clockSet d | .sensorsRead d | .resourceClaim d | .resourceRelease d
  | .gpioConfig d | .healthReport d | .repair d | .attest d | .lifecycleSet d | .fwUpdate d | .debugUnlock d => d.wf
  | .relayedCommand opcode _ => decide (opcode < 2 ^ 16)
  | .busyChannelWrite ch => decide (ch < 16)
  | .haltTimeout ch => decide (ch < 16)
  | .registerWrite _ target size _ => target.wf && (size == 4 || size == 8)
  | .rd q => q.wf && q.op == .rd
  | .wr q => q.wf && q.op == .wr
  | .wrb q => q.wf && q.op == .wrb
  | .grant p => p.wf && p.grant
  | .wdata p => p.wf && p.write
  | .cpl p => p.wf && !p.grant
  | .rdata p => p.wf && !p.write
  | .inv p => p.wf && !p.ack
  | .invAck p => p.wf && p.ack
  | .flitGrant node net out => decide (node < 72 ∧ net < 4 ∧ out < 16)
  | .urgencyRise node net input vc => decide (node < 72 ∧ net < 4 ∧ input < 16 ∧ vc < 2)
  | .clusterStep t c => decide (t < 64 ∧ c < 128)
  | .holdTimeout t c => decide (t < 64 ∧ c < 128)
  | .mmUnitPresent t c => decide (t < 64 ∧ c < 128)
  | .mmrReturn t c => decide (t < 64 ∧ c < 128)
  | .bridgeInputWord m => decide (m < 16)
  | .brTick m => decide (m < 16)
  | .bridgeOutputWord m => decide (m < 16)
  | .outputRelease m => decide (m < 16)
  | .halfSwap m => decide (m < 16)
  | .bundleArrival t port => decide (t < 64 ∧ port < 4)
  | .bundleGrant t out => decide (t < 64 ∧ out < 13)
  | .latchDelivery t c latch => decide (t < 64 ∧ c < 128 ∧ latch < 2)
  | .creditReturn t out vc => decide (t < 64 ∧ out < 13 ∧ vc < 2)
  | .shroudEmission t out half slot => decide (t < 64 ∧ out < 13 ∧ half < 2 ∧ slot < 1024)
  | .riggingDrainComplete m => decide (m < 16)
  | .slotTableWrite _ addr _ => decide (0x15_0004_0000 ≤ addr ∧ addr < 0x15_0400_0000 ∧ 0x4_0000 ≤ addr % 0x10_0000 ∧ addr % 0x10_0000 < 0xA_8000 ∧ addr % 8 = 0)
  | .switchStep t thread => decide (t < 64 ∧ thread < 2)
  | .runStep t thread => decide (t < 64 ∧ thread < 2)
  | .streamPortFetch t n => decide (t < 64 ∧ n < 8)
  | .streamPortStore t n => decide (t < 64 ∧ n < 8)
  | .arrayHoldTimeout t thread => decide (t < 64 ∧ thread < 2)
  | .bankGrant t b => decide (t < 64 ∧ b < 16)
  | .correctedWriteBack t b => decide (t < 64 ∧ b < 16)
  | .spPwrWrite _ t _ => decide (t < 64)
  | .bankWake t b => decide (t < 64 ∧ b < 16)
  | .bankZeroFill t b => decide (t < 64 ∧ b < 16)
  | .dramRequest g => decide (g < 64)
  | .dramTransaction g i => decide (g < 64 ∧ i < 48)
  | .refreshDue g => decide (g < 64)
  | .idleRefresh g => decide (g < 64)
  | .forcedRefresh g => decide (g < 64)
  | .refreshEnd g => decide (g < 64)
  | .patrolScrub g => decide (g < 64)
  | .dramZeroFill g => decide (g < 64)
  | .stackTemperatureRead stack _ => decide (stack < 4)
  | .packetDrainComplete m => decide (m < 16)
  | .fenceTimeout ch => decide (ch < 17)
  | .frameWrite _ addr _ => decide (0x14_0000_0000 ≤ addr ∧ addr < 0x14_0800_0000 ∧ addr % 8 = 0)
  | .gclkSelWrite _ n _ => decide (n < 8)
  | .switchForced n => decide (n < 8)
  | .dcoCfgWrite _ k _ => decide (k < 8)
  | .dcoWindow k _ => decide (k < 8)
  | .bar4Request _ off size _ => decide (off < 0x100_0000 ∧ off % size = 0) && (size == 4 || size == 8)
  | .bar4Timeout n => decide (n < 8)
  | .flashReadPort off => decide (off < 0x40_0000)
  | .outMlo _ _ bank _ => decide (bank < 8)
  | .outMhi _ _ bank _ => decide (bank < 8)
  | .oeMlo _ _ bank _ => decide (bank < 8)
  | .oeMhi _ _ bank _ => decide (bank < 8)
  | .pinInput pin _ => decide (pin < 256)
  | .glitchFilterExpiry pin => decide (pin < 256)
  | .bankSupplyChange bank vdet => decide (bank < 8 ∧ vdet < 4)
  | .rawBlockReceive lane sync _ => decide (lane < 144 ∧ sync < 4)
  | .detectPoll lane _ => decide (lane < 144)
  | .trainComplete lane => decide (lane < 144)
  | .lockComplete lane _ => decide (lane < 144)
  | .stageTimeout lane passed => decide (lane < 144 ∧ passed ≤ 16)
  | .cap lane block => decide (lane < 144 ∧ block.length = 8)
  | .alignBlock lane block => decide (lane < 144 ∧ block.length = 8)
  | .skip lane _ _ => decide (lane < 144)
  | .idle lane block => decide (lane < 144 ∧ block.length = 8)
  | .aelbelFrame lane frame => decide (lane < 144 ∧ frame.length = 256)
  | .replayTimeout lane => decide (lane < 144)
  | .frameTransmit lane => decide (lane < 144)
  | .crcErrorWindow lane => decide (lane < 144)
  | .retrain lane => decide (lane < 144)
  | .lockLoss lane _ => decide (lane < 144)
  | .retrainComplete lane _ => decide (lane < 144)
  | .eidle lane => decide (lane < 144)
  | .eidleExit lane => decide (lane < 144)
  | .sleep lane => decide (lane < 144)
  | .sleepWake lane => decide (lane < 144)
  | .adaptationFreeze lane _ => decide (lane < 144)
  | .bar2Request _ off len _ data => decide (off < 2 ^ 48 ∧ len ≤ 4096 ∧ data.length ≤ len)
  | .csyncAck pos seq st => decide (pos < 32 ∧ seq < 256 ∧ st < 2 ^ 16)
  | .csyncCommit seq join => decide (seq < 256 ∧ join < 2 ^ 48)
  | .positionLost pos => decide (pos < 32)
  | .cascadeFaultMessage record => decide (record.length = 32)
  | .halyardEntry _ data => decide (data.length ≤ 232)
  | .compareRecordSend m => decide (m < 16)
  | .compareRecord record => decide (record.length = 16)
  | .faultNotice record => decide (record.length = 16)
  | .railGood rail => decide (rail < 10)
  | .railLoss rail => decide (rail < 10)
  | .tamperTrip source => source.wf
  | .sensorSample tile temp vmin => decide (tile < 66 ∧ temp < 4096 ∧ vmin < 4096)
  | .agingMeasure tile _ => decide (tile < 64)
  | .bistPass unit => unit.wf
  | .yardClose yard => decide (yard < 4096)
  | .yardOpen yard => decide (yard < 4096)
  | .samplePreload preload => match preload with
    | some l => l.all fun c => decide (c.1 < 256)
    | none => true
  | .dbgAccess cmd size addr _ => decide (cmd < 4 ∧ size < 4 ∧ addr < 2 ^ 48)
  | .haltReq m => decide (m < 16)
  | .dbgHaltRun m => decide (m < 16)
  | .stepGo m => decide (m < 16)
  | .overflow t source => decide (t < 64 ∧ source < 2)
  | .powerTransitionDone m => decide (m < 16)
  | .laneTestEnd lane => decide (lane < 144)
  | .hostLinkUp speed width => decide (1 ≤ speed ∧ speed ≤ 5) && (width == 1 || width == 4 || width == 8)
  | .pcsBlockLock lane _ => decide (lane < 144)
  | .ketchRoleMessage role => decide (role < 6)
  | .joinCountReport pos count => decide (pos < 32 ∧ count < 2 ^ 48)
  | .halyardStatusReport pos st => decide (pos < 32 ∧ st < 2 ^ 16)
  | .discoveryMessage m => m.wf
  | .reefingHoldStep | .flashBoot | .leadTicks | .startEdge | .resumeEdge | .hotReset _ | .completionTimeout _
  | .csyncAlign _ | .csyncStart _ | .csyncJoinPrep _ | .csyncRelease _ | .csyncStop _ | .csyncFreeze _ | .csyncAction
  | .ketchTimeout | .porstN _ _ | .perstN | .hrefclkLoss | .resetRelease | .mastLock | .mastLockLoss
  | .secureSramWipe | .lockstepMismatch | .firmwareRestart | .faultContainment | .defectSample | .reefEvaluation
  | .emergencyReef | .powerEstimate _ | .dcoRetrim | .tapReset | .idcode | .extest | .extestPulse | .extestTrain
  | .clamp | .highz | .dbgStatus | .bypass | .unlockExpiry | .ts | .tracePacketSink | .reefingLevelSwitch
  | .cascadeFormTimeout | .csyncAckDeadline | .flashLoadComplete | .firmwareStart | .hrefclkPresent
  | .hostConfigWrite _ | .hostCompletion _ _ => true

end Sys2Proof
end

