-- ==== Sys2Proof/Tests/Slice0.lean ====
section
/-! SUPPORT. Tests: the well-formedness checks, single steps on small states, and witnesses of the statements' hypotheses. -/

namespace Sys2Proof.Tests

open Sys2Proof Sys2Proof.Machine

set_option Elab.async false

/- Helpers. -/

/-- A part whose firmware runs, as State.reset otherwise leaves it. -/
def fw : State := { State.reset with pwr := { firmware := true, started := true, wiped := true } }

/-- A command on channel 15 with an inline payload. -/
def dsc (p : List Byte) : Desc := { chan := 15, flags := 0, tag := 0, raddr := 0, rmax := 0, payload := p }

/-- The device RUNNING with region E0 released, RUNNING and using clusters 0 and 1 of tile 0. -/
def run : State :=
  ((fw.setFld aCfgStatus 0 3 2).setFld (aCfgRgn 0) 0 3 2).setRgn 0 { released := true, usage := { clusters := [(0, 0), (0, 1)] } }

/-- Bytes of numbers, each of the width given. -/
def words (l : List (Nat × Nat)) : List Byte := l.flatMap fun x => bytesOfNat x.1 x.2

/- Witnesses: the command interface. -/

theorem witness_QueriesAnswer_1 : fw.takes 0x01 (dsc []) ∧ fits (dsc []).payload 0 = true ∧ fw.takes 0x02 (dsc []) ∧
    fw.takes 0x73 (dsc []) ∧ fw.takes 0x90 (dsc []) := by
  simp only [State.takes, State.up]
  repeat' apply And.intro
  all_goals decide +kernel

theorem witness_QueriesAnswer_2 : fw.takes 0x51 (dsc [143, 1]) ∧ fits [143, 1] 2 = true ∧ fw.takes 0x51 (dsc [19, 125]) ∧
    leNum [143, 1] 0 1 + leNum [143, 1] 1 1 ≤ 144 ∧ leNum [19, 125] 1 1 ≤ 125 ∧ leNum [19, 125] 0 1 + leNum [19, 125] 1 1 ≤ 144 := by
  simp only [State.takes, State.up]
  repeat' apply And.intro
  all_goals decide +kernel

theorem witness_QueriesAnswer_3 : fw.takes 0xA0 (dsc (zeros 36)) ∧ fits (zeros 36) 36 = true ∧ leNum (zeros 36) 32 4 = 0 ∧
    fw.takes 0xA0 (dsc (zeros 32 ++ [1, 0, 0, 0])) ∧ leNum (zeros 32 ++ [1, 0, 0, 0]) 32 4 = 1 := by
  simp only [State.takes, State.up]
  repeat' apply And.intro
  all_goals decide +kernel

/-- Two events wait; `lost` have been discarded. -/
def evs (lost : Nat) : State := { fw with events := { queue := [{ code := 2, region := 0, seq := 7, time := 9, data := [1] },
  { code := 3, region := 1, seq := 8, time := 9, data := [] }], seq := 9, lost } }

theorem witness_EventReadTakesOldest :
    (evs 0).takes 0x03 (dsc (words [(2, 1)])) ∧ fits (words [(2, 1)]) 2 = true ∧ 1 ≤ leNum (words [(2, 1)]) 0 2 ∧
    (evs 1).takes 0x03 (dsc (words [(2, 84)])) ∧ leNum (words [(2, 84)]) 0 2 ≤ 84 ∧ 0 < (evs 1).events.lost := by
  simp only [State.takes, State.up]
  repeat' apply And.intro
  all_goals decide +kernel

theorem witness_SettingsTakeEffect_1 :
    fw.takes 0x70 (dsc (words [(2, 150)])) ∧ 150 ≤ leNum (words [(2, 150)]) 0 2 ∧ fw.takes 0x70 (dsc (words [(2, 700)])) ∧
    fits (words [(2, 700)]) 2 = true ∧ leNum (words [(2, 700)]) 0 2 ≤ 700 ∧
    fw.takes 0x71 (dsc [70, 2, 4, 1]) ∧ fw.takes 0x71 (dsc [100, 15, 0, 0]) ∧ fits [100, 15, 0, 0] 4 = true := by
  simp only [State.takes, State.up]
  repeat' apply And.intro
  all_goals decide +kernel

theorem witness_SettingsTakeEffect_2 :
    fw.takes 0x72 (dsc [1, 2, 0, 0, 0, 0]) ∧ fits [1, 2, 0, 0, 0, 0] 6 = true ∧ fw.bitOf aMastStat 4 = false ∧
    fw.bitOf aCascStat 5 = false ∧ (List.range 4).all (fun i => leNum [1, 2, 0, 0, 0, 0] (2 + i) 1 == 0) = true ∧
    fw.takes 0x72 (dsc [0, 0, 8, 0, 33, 0]) ∧ fw.devState ≠ 2 ∧ fw.part.speed15 = true ∧
    (List.range 4).any (fun i => leNum [0, 0, 8, 0, 33, 0] (2 + i) 1 != 0) = true ∧
    ratiosOk ((List.range 4).map fun i => divOr (leNum [0, 0, 8, 0, 33, 0] (2 + i) 1) (fw.clk.row.getD i 0)) = true := by
  simp only [State.takes, State.up]
  repeat' apply And.intro
  all_goals decide +kernel

/-- Member A of a Ketch pair in role `r`. -/
def pair (r : Nat) : State := (fw.setFld aCascStat 38 2 1).setFld aKetchStat 0 3 r

theorem witness_SettingsTakeEffect_3 :
    (pair 1).takes 0x61 (dsc [1, 16, 255, 143, 0]) ∧ fits [1, 16, 255, 143, 0] 5 = true ∧ (pair 1).member = 1 ∧
    (pair 1).role ≠ 0 ∧ (pair 0).takes 0x61 (dsc [1, 0, 1, 0, 143]) ∧ (pair 0).member = 1 ∧ (pair 0).role = 0 := by
  simp only [State.takes, State.up]
  repeat' apply And.intro
  all_goals decide +kernel

/-- Pin 255, lane 143, UART1 and DCO 7 held by HOST; granule 0 owned by region E15, granule 1 by HOST. -/
def claims : State :=
  (((((fw.setClaim 0 255 1).setClaim 1 143 1).setClaim 3 0 1).setClaim 2 7 1).setOwner 0 15).setOwner 1 0x10

/-- Payload of a claim or a release. -/
def claimB (kind owner i n : Nat) : List Byte := words [(1, kind), (1, owner), (2, 0), (4, i), (4, n)]

theorem witness_ClaimsTakeEffect_1 :
    claims.takes 0x80 (dsc (claimB 6 15 959 1)) ∧ claimOf claims.part (claimB 6 15 959 1) = some (6, 15, 959, 1) ∧
    ((List.range 1).all fun k => (claims.rung 0x80 (dsc (claimB 6 15 959 1))).isFree 6 (959 + k)) = true ∧
    claims.takes 0x80 (dsc (claimB 0 0x10 0 255)) ∧ claimOf claims.part (claimB 0 0x10 0 255) = some (0, 0x10, 0, 255) ∧
    ((List.range 255).all fun k => (claims.rung 0x80 (dsc (claimB 0 0x10 0 255))).isFree 0 (0 + k)) = true := by
  simp only [State.takes, State.up]
  repeat' apply And.intro
  all_goals decide +kernel

theorem witness_ClaimsTakeEffect_2 :
    claims.takes 0x81 (dsc (claimB 6 0x10 1 1)) ∧ claimOf claims.part (claimB 6 0x10 1 1) = some (6, 0x10, 1, 1) ∧
    ((List.range 1).all fun k => (claims.rung 0x81 (dsc (claimB 6 0x10 1 1))).ownerOf ((1 + k) * 0x400_0000) == 0x10) = true ∧
    claims.takes 0x81 (dsc (claimB 6 15 0 1)) ∧ claimOf claims.part (claimB 6 15 0 1) = some (6, 15, 0, 1) ∧
    ((List.range 1).all fun k => (claims.rung 0x81 (dsc (claimB 6 15 0 1))).ownerOf ((0 + k) * 0x400_0000) == 15) = true ∧
    claims.runsFree 15 = false ∧ claims.drains 15 = false := by
  simp only [State.takes, State.up]
  repeat' apply And.intro
  all_goals decide +kernel

theorem witness_ClaimsTakeEffect_3 :
    claims.takes 0x81 (dsc (claimB 0 0x10 255 1)) ∧ claimOf claims.part (claimB 0 0x10 255 1) = some (0, 0x10, 255, 1) ∧
    ((List.range 1).all fun k => claims.claim 0 (255 + k) == 1) = true ∧
    claims.takes 0x81 (dsc (claimB 1 0x10 143 1)) ∧ claimOf claims.part (claimB 1 0x10 143 1) = some (1, 0x10, 143, 1) ∧
    ((List.range 1).all fun k => claims.claim 1 (143 + k) == 1) = true := by
  simp only [State.takes, State.up]
  repeat' apply And.intro
  all_goals decide +kernel

/-- PIN_CFG of a pin of the host with function 0. -/
def pinV : W64 := 0x2010

theorem witness_ClaimsTakeEffect_4 :
    claims.takes 0x82 (dsc (bytesOfNat 2 255 ++ zeros 6 ++ bytesOfNat 8 pinV.toNat)) ∧ claims.claim 0 255 = 1 ∧
    (funcsFor (fld pinV 4 3)).contains (fld pinV 0 3) = true ∧ fld pinV 4 3 ≠ 6 ∧ pinV &&& 0x7FFF_FFE0_C000_8088 = 0 ∧
    fld pinV 10 2 ≠ 3 ∧ fld pinV 12 2 ≠ 3 ∧ claims.claim 3 (2 - 2) = 1 ∧ (funcsFor 1).contains 2 = true ∧ fld (0x2012 : W64) 0 3 = 2 ∧
    claims.claim 2 (fld (0x0700_2015 : W64) 24 6 % 8) = 1 ∧ (funcsFor 1).contains 5 = true ∧ fw.jtagScope 3 = true := by
  simp only [State.takes, State.up]
  repeat' apply And.intro
  all_goals decide +kernel

theorem witness_DebugCommandsAct_1 :
    run.takes 0x22 (dsc (words [(4, 1)])) ∧ fits (words [(4, 1)]) 4 = true ∧ maskOf (words [(4, 1)]) < 2 ^ 16 ∧
    (masked (maskOf (words [(4, 1)]))).all (fun m => !run.fenced m && run.rgnState m != 5) = true ∧
    run.takes 0x23 (dsc (words [(4, 1), (4, 0), (8, 0)])) ∧ fits (words [(4, 1), (4, 0), (8, 0)]) 16 = true ∧
    (masked (maskOf (words [(4, 1), (4, 0), (8, 0)]))).all (fun m => !run.fenced m) = true := by
  simp only [State.takes, State.up]
  repeat' apply And.intro
  all_goals decide +kernel

theorem witness_DebugCommandsAct_2 :
    run.takes 0x24 (dsc (words [(4, 1), (1, 1), (3, 0), (4, 0xF_FFFF)])) ∧ fits (words [(4, 1), (1, 1), (3, 0), (4, 0xF_FFFF)]) 12 = true ∧
    leNum (words [(4, 1), (1, 1), (3, 0), (4, 0xF_FFFF)]) 8 4 < 2 ^ 20 ∧
    run.takes 0x24 (dsc (words [(4, 1), (1, 0), (3, 0), (4, 1)])) ∧
    run.takes 0x25 (dsc (words [(1, 0), (1, 15), (6, 0), (8, 3), (8, 1), (8, 1)])) ∧
    breakTarget (words [(1, 0), (1, 15), (6, 0), (8, 3), (8, 1), (8, 1)]) = some (0, 15, 0) ∧
    breakTarget (words [(1, 1), (1, 7), (6, 0), (8, 5), (16, 0)]) = some (1, 7, 0) ∧ run.fenced 0 = false ∧
    run.takes 0x25 (dsc (words [(1, 2), (1, 1), (6, 0), (8, 1), (16, 0)])) ∧
    breakTarget (words [(1, 2), (1, 1), (6, 0), (8, 1), (16, 0)]) = some (2, 1, 0) := by
  simp only [State.takes, State.up]
  repeat' apply And.intro
  all_goals decide +kernel

/- Witnesses: regions, observation, links. -/

/-- A partial image for G0 with one frame, whose first byte is 0xAB; its signature and hashes are not looked at here. -/
def gImg : List Byte :=
  ascii "ZPIM" ++ words [(2, 1), (1, 1), (1, 0), (2, 0x9640), (1, 3), (1, 0x3F), (4, 0x1_0000), (8, 260), (2, 1), (6, 0), (16, 7), (8, 320), (8, 0),
    (2, 0x40), (2, 16), (4, 0), (8, 128), (8, 132), (8, 0), (32, 0), (4, 0), (1, 0xAB), (127, 0)]

/-- That image retained, in a RUNNING device whose G0 is FENCED. -/
def gLoad : State :=
  let s := (run.setFld (aCfgRgn 16) 0 3 3).putMem 0xF_0000_0000 gImg
  { s with engine := { s.engine with retained := some { base := 0xF_0000_0000, total := 260, source := 1 } } }

theorem witness_RegionCommandsAct_1 :
    run.takes 0x30 (dsc (words [(4, 0xFF_FFFF)])) ∧ fits (words [(4, 0xFF_FFFF)]) 4 = true ∧ maskOf (words [(4, 0xFF_FFFF)]) < 2 ^ 24 := by
  simp only [State.takes, State.up]
  repeat' apply And.intro
  all_goals decide +kernel

theorem witness_RegionCommandsAct_2 :
    gLoad.takes 0x31 (dsc (words [(4, 0x1_0000), (4, 0)])) ∧ fits (words [(4, 0x1_0000), (4, 0)]) 8 = true ∧
    ((gLoad.rung 0x31 (dsc (words [(4, 0x1_0000), (4, 0)]))).commitPartial 0x1_0000 false).2 = cOk ∧
    gLoad.takes 0x31 (dsc (words [(4, 0x1_0000), (4, 1)])) ∧
    ((gLoad.rung 0x31 (dsc (words [(4, 0x1_0000), (4, 1)]))).commitPartial 0x1_0000 true).2 = cOk := by
  simp only [State.takes, State.up]
  repeat' apply And.intro
  all_goals decide +kernel

/-- E0 halted and E1 COMMITTED by a REGION_LOAD in a RUNNING device. -/
def resume : State := (run.setFld (aCfgRgn 1) 0 3 1).setRgn 1 { loaded := true }

theorem witness_RegionCommandsAct_3 :
    resume.takes 0x32 (dsc (words [(4, 3)])) ∧ fits (words [(4, 3)]) 4 = true ∧ resume.devState = 2 ∧ resume.bitOf aCascStat 5 = false ∧
    ((masked 3).any fun m => resume.rgnState m != 2) = true ∧
    ((masked 3).all fun m => resume.rgnState m == 2 || resume.isLoaded m) = true := by
  simp only [State.takes, State.up]
  repeat' apply And.intro
  all_goals decide +kernel

/-- E15 FENCED with both drains complete. -/
def fencedE : State := (run.setFld (aCfgRgn 15) 0 3 3).setFld (aCfgRgn 15) 4 3 7

theorem witness_RegionCommandsAct_4 :
    fencedE.takes 0x33 (dsc (words [(4, 0x8001), (1, 0)])) ∧ fencedE.takes 0x33 (dsc (words [(4, 0x8000), (1, 2)])) ∧
    fits (words [(4, 0x8000), (1, 2)]) 5 = true ∧
    ((masked 0x8000).all fun m => fencedE.domainOf m == 2 ||
      (fencedE.fenceDone m && (fencedE.rgnState m == 3 || fencedE.rgnState m == 5) && !(fencedE.domainOf m == 2 && (2 : Nat) == 1))) = true ∧
    ((masked 0x8001).all fun m => fencedE.domainOf m == 0 ||
      (fencedE.fenceDone m && (fencedE.rgnState m == 3 || fencedE.rgnState m == 5) && !(fencedE.domainOf m == 2 && (0 : Nat) == 1))) = true := by
  simp only [State.takes, State.up]
  repeat' apply And.intro
  all_goals decide +kernel

/-- E0 COMMITTED in a COMMITTED device. -/
def committed : State :=
  let s := (fw.setFld aCfgStatus 0 3 1).setFld (aCfgRgn 0) 0 3 1
  { s with engine := { s.engine with configured := [0] } }

theorem witness_StartAndStop :
    committed.leads = false ∧ committed.takes 0x20 (dsc []) ∧ fits [] 0 = true ∧ committed.devState = 1 ∧ committed.configuredEs = [0] ∧
    (committed.configuredEs.all fun m => committed.rgnState m != 5) = true ∧
    run.leads = false ∧ run.takes 0x21 (dsc []) ∧ run.devState = 2 ∧ committed.takes 0x21 (dsc []) ∧ committed.devState ≠ 2 := by
  simp only [State.takes, State.up]
  repeat' apply And.intro
  all_goals decide +kernel

/-- Granules 0 and 1 allotted to HOST. -/
def hostDram : State := (fw.setOwner 0 0x10).setOwner 1 0x10

/-- CAPTURE_SET of tiles 0 and 63 with buffers of 4 KiB. -/
def capB : List Byte := words [(8, 2 ^ 63 + 1), (8, 0x1000), (4, 0x1000), (1, 1), (1, 3), (2, 0)]

theorem witness_ObserveCommandsAct_1 :
    hostDram.takes 0x40 (dsc capB) ∧ fits capB 24 = true ∧ allZero (sub capB 22 2) = true ∧ leNum capB 20 1 ≤ 1 ∧ leNum capB 21 1 ≤ 3 ∧
    ((List.range 64).filter (leNum capB 0 8).testBit) = [0, 63] ∧
    ([0, 63].all fun t => (hostDram.rung 0x40 (dsc capB)).ownedBy 0x10 (0x1000 + 0x1000 * [0, 63].findIdx (· == t)) 0x1000) = true ∧
    hostDram.takes 0x40 (dsc (zeros 24)) ∧ ((List.range 64).filter (leNum (zeros 24) 0 8).testBit) = [] := by
  simp only [State.takes, State.up]
  repeat' apply And.intro
  all_goals decide +kernel

/-- TRACE_SET with no sink, THRESH 17 and a ring of 4 KiB. -/
def traceB : List Byte := words [(16, 0), (3, 0), (1, 0), (1, 17), (3, 0), (8, 0), (4, 0x1000), (4, 0), (136, 0)]

theorem witness_ObserveCommandsAct_2 :
    fw.takes 0x41 (dsc traceB) ∧ fits traceB 176 = true ∧ (fw.rung 0x41 (dsc traceB)).traceOk traceB = true := by
  simp only [State.takes, State.up]
  repeat' apply And.intro
  all_goals decide +kernel

/-- Granule 0 allotted to E0. -/
def regionDram : State := fw.setOwner 0 0

/-- STATE_READ of 16 bytes of granule 0; STATE_WRITE of 16 bytes there. -/
def readB : List Byte := words [(8, 0x40), (4, 16)]
def writeB : List Byte := words [(8, 0x40), (4, 16), (4, 0), (8, 5), (8, 6)]

theorem witness_ObserveCommandsAct_3 :
    regionDram.takes 0x42 (dsc readB) ∧ readB = bytesOfNat 8 0x40 ++ bytesOfNat 4 16 ∧ (16 : Nat) % 8 = 0 ∧ rangeStatus 0x40 16 = cOk ∧
    regionDram.mci.cmds = [] ∧ regionDram.noc.tags = [] ∧ regionDram.ketch.resync = none ∧
    rangeStatus 0x15_2000_0000 8 = cBadParam ∧ rangeStatus 0x15_1FFF_FFF8 8 = cOk := by
  simp only [State.takes, State.up]
  repeat' apply And.intro
  all_goals decide +kernel

theorem witness_ObserveCommandsAct_4 :
    regionDram.takes 0x43 (dsc writeB) ∧ writeB = bytesOfNat 8 0x40 ++ bytesOfNat 4 16 ++ zeros 4 ++ words [(8, 5), (8, 6)] ∧
    (words [(8, 5), (8, 6)]).length = 16 ∧ regionDram.undrained 0x40 = false := by
  simp only [State.takes, State.up]
  repeat' apply And.intro
  all_goals decide +kernel

/-- A STATE_READ of 24 bytes from 0x10_0000_0000 of which 16 have come; the request of the rest is out. -/
def accessCmd : MciCmd := { chan := 15, opcode := 0x42, desc := dsc [], task := .access false 0x10_0000_0000 24 16 (zeros 16) false }
def accessTag : TagHeld :=
  { node := 64, port := 1, tag := 511, use := .engine 15,
    req := { op := .rd, urg := 4, dstNode := 0, dstPort := 1, srcNode := 64, srcPort := 1, tag := 511, len := 8, origin := .config, dstDev := 0,
             srcDev := 0, addr := 0x10_0000_0010, data := [], poison := false } }
def reading : State := { fw with noc := { fw.noc with tags := [accessTag] }, mci := { fw.mci with cmds := [accessCmd] } }

/-- Its answer. -/
def accessCpl : Rsp :=
  { grant := false, urg := 4, dstNode := 64, dstPort := 1, tag := 511, status := stOk, poison := true, dstDev := 0, data := words [(8, 77)] }

theorem witness_ObserveCommandsAct_5 :
    reading.up ∧ reading.pwr.firmware = true ∧ reading.mci.cmds = [accessCmd] ∧ accessCmd.chan < 16 ∧ reading.noc.tags = [accessTag] ∧
    accessTag.use = .engine accessCmd.chan ∧ 16 + accessTag.req.len = 24 ∧ accessCpl.dstDev = reading.pos ∧
    accessTag.node = accessCpl.dstNode ∧ accessTag.port = accessCpl.dstPort ∧ accessTag.tag = accessCpl.tag ∧ accessCpl.status = stOk ∧
    reading.noc.arrived = [] := by
  simp only [State.up]
  repeat' apply And.intro
  all_goals decide +kernel

/-- The link record of lanes 140 to 143: Aelbel Link at rate 2, every class. -/
def recB : List Byte := words [(1, 140), (1, 2), (1, 1), (1, 2), (2, 0x3F), (1, 0), (1, 1), (2, 0), (2, 0), (1, 30), (3, 0)]

theorem witness_LinkCommandsAct_1 :
    fw.takes 0x50 (dsc recB) ∧ recB.length = 16 ∧ linkRecOk recB (fw.bitOf aMastStat 4) = true ∧
    (fw.rung 0x50 (dsc recB)).linksUnder (linkRecOf recB) = [] ∧
    ((List.range (linkRecOf recB).lanes).all fun i => decide (fw.claim 1 ((linkRecOf recB).first + i) ≤ 1)) = true := by
  simp only [State.takes, State.up]
  repeat' apply And.intro
  all_goals decide +kernel

theorem witness_LinkCommandsAct_2 :
    fw.takes 0x52 (dsc [143, 0, 1, 0, 1, 0, 0, 0]) ∧ fits [143, 0, 1, 0, 1, 0, 0, 0] 8 = true ∧
    fw.takes 0x52 (dsc [0, 0, 3, 2, 0x60, 0xEA, 0, 0]) ∧ leNum [0, 0, 3, 2, 0x60, 0xEA, 0, 0] 4 4 ≤ 60000 ∧ fw.links = [] ∧
    fw.lnState 143 ≠ 6 ∧ fw.takes 0x52 (dsc [143, 0, 0, 0, 1, 0, 0, 0]) := by
  simp only [State.takes, State.up]
  repeat' apply And.intro
  all_goals decide +kernel

/-- The master at position 0. -/
def lead : State := fw.setFld aCascStat 4 1 1

def formB : List Byte := words [(2, 3), (2, 0), (4, 1000), (4, 0), (4, 0)]

theorem witness_LinkCommandsAct_3 :
    lead.takes 0x60 (dsc formB) ∧ formB.length = 16 ∧ leNum formB 2 2 = 0 ∧ 1000 ≤ leNum formB 4 4 ∧ leNum formB 8 4 = 0 ∧
    allZero (sub formB 12 4) = true ∧ lead.isMaster = true ∧ lead.pos = 0 ∧ lead.casc.form = none ∧ lead.devState ≠ 2 ∧
    leNum formB 0 2 / 2 ≠ 0 := by
  simp only [State.takes, State.up]
  repeat' apply And.intro
  all_goals decide +kernel

/-- The master of member A, alone in it, whose twin has been turned out and whose resync link (lane 5) is ACTIVE. -/
def resyncA : State :=
  let s := (((pair 1).setFld aCascStat 4 3 7).setReg aKetchCfg 0x0500_0A06).setFld (aLnStat 5) 0 3 5
  { s with ketch := { s.ketch with twinOut := true }, casc := { s.casc with twins := 1, ready := [16] } }

theorem witness_LinkCommandsAct_4 :
    resyncA.takes 0x62 (dsc [2]) ∧ fits [2] 1 = true ∧ resyncA.leads = true ∧ resyncA.member = 1 ∧ resyncA.role ≠ 4 ∧
    resyncA.ketch.resync = none ∧ resyncA.lnActive (resyncA.fldOf aKetchCfg 24 8) = true ∧ resyncA.ketch.twinOut = true ∧
    resyncA.twinsReady = true := by
  simp only [State.takes, State.up]
  repeat' apply And.intro
  all_goals decide +kernel

/- Witnesses: images, security, channels. -/

/-- A staging by the host of 16 bytes of which `n` have come. -/
def staged (n : Nat) : State := { fw with engine := { fw.engine with staging := some { total := 16, kind := 0, got := n, source := 1 } } }

theorem witness_ImageCommandsAct_1 :
    fw.takes 0x10 (dsc (words [(8, stageArea), (1, 2)])) ∧ fits (words [(8, stageArea), (1, 2)]) 9 = true ∧ fw.staging = false ∧
    leNum (words [(8, stageArea), (1, 2)]) 0 8 ≤ stageArea ∧ leNum (words [(8, stageArea), (1, 2)]) 8 1 ≤ 2 := by
  simp only [State.takes, State.up]
  repeat' apply And.intro
  all_goals decide +kernel

theorem witness_ImageCommandsAct_2 :
    (staged 8).takes 0x11 (dsc (words [(8, 8), (8, 0xFF)])) ∧
    (staged 8).engine.staging = some { total := 16, kind := 0, got := 8, source := 1 } ∧ 8 < (words [(8, 8), (8, 0xFF)]).length ∧
    leNum (words [(8, 8), (8, 0xFF)]) 0 8 = 8 ∧ 8 + ((words [(8, 8), (8, 0xFF)]).length - 8) ≤ 16 := by
  simp only [State.takes, State.up]
  repeat' apply And.intro
  all_goals decide +kernel

theorem witness_ImageCommandsAct_3 :
    (staged 16).takes 0x12 (dsc []) ∧ (staged 16).engine.staging = some { total := 16, kind := 0, got := 16, source := 1 } ∧
    fits [] 0 = true ∧ fw.takes 0x13 (dsc []) ∧
    fw.takes 0x14 (dsc [1]) ∧ fits [1] 1 = true ∧ leNum [1] 0 1 ≤ 1 := by
  simp only [State.takes, State.up]
  repeat' apply And.intro
  all_goals decide +kernel

/-- A FLASH_WRITE of one byte. -/
def flashB (target golden addr : Nat) : List Byte := words [(1, target), (1, golden), (6, 0), (8, addr), (1, 0x5A)]

theorem witness_SecurityCommandsAct_1 :
    fw.takes 0x15 (dsc (flashB 1 1 0xF_FFFF)) ∧ 16 < (flashB 1 1 0xF_FFFF).length ∧ leNum (flashB 1 1 0xF_FFFF) 0 1 = 1 ∧
    allZero (sub (flashB 1 1 0xF_FFFF) 2 6) = true ∧
    leNum (flashB 1 1 0xF_FFFF) 8 8 + ((flashB 1 1 0xF_FFFF).length - 16) ≤ 0x10_0000 ∧ fw.engine.flash = none ∧
    fw.takes 0x15 (dsc (flashB 0 0 0xFFFF_FFFF)) ∧ leNum (flashB 0 0 0xFFFF_FFFF) 0 1 = 0 ∧
    leNum (flashB 0 0 0xFFFF_FFFF) 8 8 + ((flashB 0 0 0xFFFF_FFFF).length - 16) ≤ 2 ^ 32 ∧
    (fw.rung 0x15 (dsc (flashB 0 0 0xFFFF_FFFF))).slotAddr 1 +
      leNum (fw.rung 0x15 (dsc (flashB 0 0 0xFFFF_FFFF))).bootRecord 20 4 ≤ leNum (flashB 0 0 0xFFFF_FFFF) 8 8 := by
  simp only [State.takes, State.up]
  repeat' apply And.intro
  all_goals decide +kernel

/-- A boot record: BOOT_SRC FLASH, slots at 64 and 128 KiB, TAMPER_EN, a golden slot of 64 KiB, and its CRC. -/
def bootB : List Byte :=
  ascii "ZBRC" ++ words [(2, 1), (1, 1), (1, 1), (4, 0x1_0000), (4, 0x2_0000), (4, 4), (4, 0x1_0000), (228, 0), (4, 4238747810)]

theorem witness_SecurityCommandsAct_2 :
    fw.takes 0x15 (dsc (words [(1, 2), (15, 0)] ++ bootB)) ∧ (words [(1, 2), (15, 0)] ++ bootB).length = 272 ∧
    leNum (words [(1, 2), (15, 0)] ++ bootB) 8 8 = 0 ∧ bootRecordOk ((words [(1, 2), (15, 0)] ++ bootB).drop 16) = true := by
  simp only [State.takes, State.up]
  repeat' apply And.intro
  all_goals decide +kernel

/-- Cluster 5 of tile 63 waits for a remap, word 0x40 of DRAM for a row repair. -/
def ailing : State := { fw with health := { fw.health with remaps := [(63, 5)], rows := [0x40] } }

theorem witness_SecurityCommandsAct_3 :
    ailing.takes 0x91 (dsc [0, 63]) ∧ fits [0, 63] 2 = true ∧ ailing.takes 0x91 (dsc [1, 0xFF]) ∧ ailing.mayRemap 63 = true ∧
    fw.takes 0xA1 (dsc (words [(1, 1), (7, 0), (32, 9)])) ∧ (words [(1, 1), (7, 0), (32, 9)]).length = 40 ∧
    leNum (words [(1, 1), (7, 0), (32, 9)]) 0 1 = 1 ∧ allZero (sub (words [(1, 1), (7, 0), (32, 9)]) 1 7) = true ∧
    allZero (sub (words [(1, 1), (7, 0), (32, 9)]) 8 32) = false ∧ fw.sec.lifecycle = 0 ∧ fw.devState ≠ 1 ∧ fw.devState ≠ 2 ∧
    fw.takes 0xA3 (dsc [0]) ∧ fw.sec.lifecycle ≠ 4 ∧ fw.takes 0xA3 (dsc [2]) := by
  simp only [State.takes, State.up]
  repeat' apply And.intro
  all_goals decide +kernel

/-- SHA3-256 of no bytes (FIPS 202). -/
def noHash : List Byte :=
  [0xa7, 0xff, 0xc6, 0xf8, 0xbf, 0x1e, 0xd7, 0x66, 0x51, 0xc1, 0x47, 0x56, 0xa0, 0x61, 0xd6, 0x62, 0xf5, 0x80, 0xff, 0x4d, 0xe4, 0x3b,
   0x49, 0xfa, 0x82, 0xd8, 0x0a, 0x4b, 0x80, 0xf8, 0x43, 0x4a]

/-- The header of a firmware package without code: VERSION 3, SVN 1. -/
def packHead : List Byte := ascii "ZFWP" ++ words [(2, 1), (1, 0), (1, 0), (4, 3), (4, 1), (4, 0), (12, 0)] ++ noHash

/-- A signature of it under the key of zeros, by FIPS 204 worked out beside Lean: under that key w' is A z, and with every
coefficient of z 0 the commitment hash is the one given. -/
def weakSig : List Byte :=
  bytesOfNat 32 0xc9fad2251b8964c4a2306c3cd71ec5eb59759e66c927ff135b490382dc26189e ++
    bytesOfNat 2304 (mlPack 18 (List.replicate 1024 131072)) ++ zeros 84

/-- The package, signed with a key that the part takes for the vendor's. -/
def packB : List Byte := packHead ++ zeros 1312 ++ weakSig

def vendor : State := { fw with sec := { fw.sec with vendorHash := sha3 (zeros 1312) } }

/-- The same in reach of the host, which keeps the payload in its memory. -/
def vendorHost : State := { vendor.setBit aHpStat 7 true with host := { vendor.host with busMaster := true } }

/-- A command on channel 15 with its payload in host memory. -/
def dscP (p : List Byte) : Desc := { dsc p with flags := 1 }

theorem witness_SecurityCommandsAct_4 :
    vendorHost.takes 0xA2 (dscP (zeros 8 ++ packB)) ∧ fits (zeros 8 ++ packB) (8 + (3796 + leNum (zeros 8 ++ packB) 24 4)) = true ∧
    vendorHost.defects = [] := by
  simp only [State.takes, State.up]
  repeat' apply And.intro
  all_goals decide +kernel

theorem test_sha3_empty : sha3 [] = noHash := by decide +kernel

theorem packB_fields : packB.take (3796 + leNum (zeros 8 ++ packB) 24 4) = packB ∧ leNum packB 16 4 = 0 ∧
    sub packB (64 + 0) 1312 = zeros 1312 ∧ sub packB 64 0 = [] ∧ sub packB 0 64 = packHead ∧ sub packB (1376 + 0) 2420 = weakSig := by
  repeat' apply And.intro
  all_goals decide +kernel

theorem vendor_key : (vendorHost.rung 0xA2 (dscP (zeros 8 ++ packB))).keyHash 0 = some (sha3 (zeros 1312)) := by
  have h : (sha3 (zeros 1312)).isEmpty = false := by rfl
  have hv : (vendorHost.rung 0xA2 (dscP (zeros 8 ++ packB))).sec.vendorHash = sha3 (zeros 1312) := by rfl
  simp only [State.keyHash, hv, h, if_true, Bool.false_eq_true, if_false]

theorem test_mlVerify_weak : mlVerify (zeros 1312) (packHead ++ zeros 1312) weakSig = true := by decide +kernel

theorem witness_SecurityCommandsAct_5 :
    (vendorHost.rung 0xA2 (dscP (zeros 8 ++ packB))).packageStatus (packB.take (3796 + leNum (zeros 8 ++ packB) 24 4)) = cOk := by
  obtain ⟨h, hn, hk, hc, hh, hs⟩ := packB_fields
  rw [h]
  simp only [State.packageStatus, hn, hk, hc, hh, hs, vendor_key, test_sha3_empty, test_mlVerify_weak, beq_self_eq_true, Bool.true_and]
  decide +kernel

/-- Channel 15 busy with a HALT of E0 that waits; channel 0 idle. -/
def busy15 : State :=
  let s := run.setBit aDbBusy 15 true
  { s with mci := { s.mci with cmds := [{ chan := 15, opcode := 0x23, desc := { dsc (words [(4, 1), (12, 0)]) with flags := 4 }, task := .halt 1 }] } }

/-- A follower at position 3. -/
def follower : State := fw.setFld aCascStat 0 5 3

/-- A relayed command of the follower is in progress. -/
def relayed16 : State :=
  { follower with mci := { follower.mci with cmds := [{ chan := 16, opcode := 0x23, desc := { dsc [] with chan := 16 }, task := .halt 1 }] } }

theorem witness_ChannelRules :
    busy15.up ∧ busy15.bitOf aDbBusy 15 = true ∧ busy15.bitOf aDbBusy (0xFFF8 / 0x1000) = true ∧ busy15.bitOf aDbBusy (0xFFFC / 0x1000) = true ∧
    busy15.pwr.firmware = true ∧ descNoIrq { dsc [] with flags := 4 } = true ∧
    busy15.mci.cmds = [{ chan := 15, opcode := 0x23, desc := { dsc (words [(4, 1), (12, 0)]) with flags := 4 }, task := .halt 1 }] ∧
    (∀ c ∈ busy15.mci.cmds, c.chan ≠ 14) ∧ follower.up ∧ follower.pwr.firmware = true ∧ follower.isMaster = false ∧
    follower.mci.cmds = [] ∧ follower.sec.lifecycle ≠ 4 ∧ opcodes.contains 0x99 = false ∧ relayed16.isMaster = false ∧ lead.isMaster = true := by
  simp only [State.up]
  repeat' apply And.intro
  all_goals decide +kernel
/- Witnesses: the packet network. -/

/-- A request of the management cores, from its bridge endpoint with the last tag of its pool. -/
def rq (op : ReqOp) (node port addr len : Nat) (data : List Byte) : Req :=
  { op, urg := 4, dstNode := node, dstPort := port, srcNode := 64, srcPort := 1, tag := 511, len, origin := .mgmt, dstDev := 0, srcDev := 0,
    addr, data, poison := false }

theorem witness_RequestsServed_1 :
    run.up ∧ (rq .rd 0 2 0 64 []).dstDev = run.pos ∧ placeOf run.part 0 = .dram ∧ channelTile (dramChannel 0) = 0 ∧
    placeOf run.part 0xF_FFFF_FFC0 = .dram ∧ channelTile (dramChannel 0xF_FFFF_FFC0) = 0 ∧
    (rq .wr 0 2 0 8 (zeros 8)).op = .wr ∧ (rq .wrb 0 2 0 64 []).op = .wrb := by
  simp only [State.up]
  repeat' apply And.intro
  all_goals decide +kernel

theorem witness_RequestsServed_2 :
    run.responder (rq .rd 63 0 0x15_03F0_8000 8 []) = some stFenced ∧ run.responder (rq .wr 63 1 0x10_07E0_0000 8 (zeros 8)) = some stFenced ∧
    run.responder (rq .wrb 63 0 0x11_C000_0000 64 []) = some stFenced := by
  repeat' apply And.intro
  all_goals decide +kernel

theorem witness_RequestsServed_3 :
    (∀ op, run.responder (rq op 64 5 (aLnCnt 143) 8 (zeros 8)) = none ∧ run.targetStatus (rq .rd 64 5 (aLnCnt 143) 8 []) = stOk) ∧
    run.targetStatus (rq .wr 64 5 (aLnCnt 143) 8 (zeros 8)) = stOk := by
  refine ⟨?_, by decide +kernel⟩
  intro op
  cases op <;> decide +kernel

theorem witness_RequestsServed_4 :
    run.responder (rq .rd 0 1 0x10_001F_FFF8 8 []) = none ∧ run.targetStatus (rq .rd 0 1 0x10_001F_FFF8 8 []) = stOk ∧
    run.responder (rq .wr 0 1 0x10_001F_FFF8 8 (zeros 8)) = none ∧ run.targetStatus (rq .wr 0 1 0x10_001F_FFF8 8 (zeros 8)) = stOk := by
  repeat' apply And.intro
  all_goals decide +kernel

theorem witness_RequestsServed_5 :
    run.responder (rq .rd 64 5 0x10_0000_0000 8 []) = none ∧ run.targetStatus (rq .rd 64 5 0x10_0000_0000 8 []) = stDecode ∧
    run.responder (rq .wr 64 5 (aLnCnt 0) 2 (zeros 2)) = none ∧ run.targetStatus (rq .wr 64 5 (aLnCnt 0) 2 (zeros 2)) = stMalformed := by
  repeat' apply And.intro
  all_goals decide +kernel

theorem witness_RequestsServed_6 :
    run.responder (rq .wrb 64 5 0x16_0003_FFC0 64 []) = none ∧ run.targetStatus (rq .wrb 64 5 0x16_0003_FFC0 64 []) = stOk ∧
    run.bufferFree (rq .wrb 64 5 0x16_0003_FFC0 64 []) = true := by
  repeat' apply And.intro
  all_goals decide +kernel

theorem witness_RequestsServed_7 :
    placeOf run.part 0x16_0003_FFC0 = .secure ∧ (rq .rd 65 5 0x16_0003_FFC0 64 []).origin = .mgmt ∧
    ({ run with pwr := { run.pwr with wiped := false } } : State).pwr.wiped = false ∧ run.hostReach = false ∧
    run.responder (rq .rd 64 2 0x18_0000_0000 8 []) = none ∧ ¬ (placeOf run.part 0x10_0000_0000 = .dram) ∧
    ({ run.setBit aHpStat 7 true with host := { run.host with busMaster := true } } : State).hostReach = true := by
  repeat' apply And.intro
  all_goals decide +kernel

/-- A packet of tile 0's tap for the funnel; a read at the user bus port of G1. -/
def tapReq : Req := { rq .wr 64 6 0 16 (zeros 16) with origin := .trace }
def busReq : Req := rq .rd 64 4 0x14_8020_0000 8 []

theorem witness_RequestsServed_8 :
    run.responder tapReq = none ∧ run.targetStatus tapReq = stOk ∧ Sys2Proof.Machine.atFunnel tapReq = true ∧
    (run.setFld (aCfgRgn 17) 0 3 2).responder busReq = none ∧ (run.setFld (aCfgRgn 17) 0 3 2).targetStatus busReq = stOk ∧
    Sys2Proof.Machine.atFunnel busReq = false ∧ (busReqOf run.part busReq).isSome = true := by
  repeat' apply And.intro
  all_goals decide +kernel

/-- The request's tag is held; the packets `ps` have arrived. -/
def held (q : Req) (use : TagUse) (ps : List Packet) : State :=
  { run with noc := { run.noc with tags := [{ node := q.srcNode, port := q.srcPort, tag := q.tag, req := q, use }], arrived := ps } }

/-- An RSP packet to the management cores for tag 511. -/
def rsp (grant : Bool) : Rsp :=
  { grant, urg := 4, dstNode := 64, dstPort := 1, tag := 511, status := 0, poison := false, dstDev := 0, data := [] }

/-- A DAT packet between the management cores and DRAM channel 0 or the secure SRAM. -/
def dat (write : Bool) (dn dp sn sp : Nat) : Dat :=
  { write, urg := 4, dstNode := dn, dstPort := dp, tag := 511, srcNode := sn, srcPort := sp, status := 0, poison := false, dstDev := 0, srcDev := 0,
    data := zeros 64 }

theorem witness_AnswersSunk_1 :
    (held (rq .wrb 0 2 0 64 (zeros 64)) .other [.rsp (rsp true)]).up ∧ (rsp true).dstDev = run.pos ∧
    ((held (rq .wrb 0 2 0 64 (zeros 64)) .other [.rsp (rsp true)]).noc.tags.find?
      fun x => x.node == (rsp true).dstNode && x.port == (rsp true).dstPort && x.tag == (rsp true).tag).isSome = true ∧
    (((held (rq .wr 0 2 0 8 (zeros 8)) .jtag [.rsp (rsp false)]).takeArrived (.rsp (rsp false))).releaseTag 64 1 511).isSome = true ∧
    (((held (rq .rd 0 2 0 64 []) (.bar2 7) [.dat (dat false 64 1 0 2)]).takeArrived (.dat (dat false 64 1 0 2))).releaseTag 64 1 511).isSome
      = true := by
  simp only [State.up]
  repeat' apply And.intro
  all_goals decide +kernel

/-- A write of 64 bytes accepted by DRAM channel 0 waits for its data; one is accepted for the secure SRAM. -/
def granted : State :=
  let s := run.setChan 0 { held := [{ slot := 47, req := rq .wrb 0 2 0 64 [], data := [], poison := false, awaitData := true, acks := [], inved := false }] }
  { s with noc := { s.noc with wbufs := [{ node := 64, port := 5, req := rq .wrb 64 5 0x16_0000_0000 64 [] }] } }

theorem witness_AnswersSunk_2 :
    granted.up ∧ (dat true 0 2 64 1).dstDev = granted.pos ∧
    (takeFirst (fun x => x.awaitData && x.req.tag == 511 && x.req.srcNode == 64 && x.req.srcPort == 1 && x.req.srcDev == 0)
      (granted.chan (tileChannel 0)).held).isSome = true ∧
    (takeFirst (fun b => b.node == 64 && b.port == 5 && b.req.tag == 511 && b.req.srcNode == 64 && b.req.srcPort == 1 && b.req.srcDev == 0)
      granted.noc.wbufs).isSome = true := by
  simp only [State.up]
  repeat' apply And.intro
  all_goals decide +kernel

/-- A transaction of tile 3's controller that waits for `acks`. -/
def waits (slot : Nat) (acks : List Nat) : Txn :=
  { slot, req := rq .wr 3 2 0 8 [], data := [], poison := false, awaitData := false, acks, inved := true, inv := [77] }

/-- Two transactions wait for the acknowledgement of tile 5 for line 77. -/
def snooped : State :=
  run.setChan (tileChannel 3) { held := [waits 1 [128 * 77 + 64], waits 2 [128 * 77 + 5, 128 * 77 + 64], waits 3 [128 * 77 + 5]],
                                snoop := [{ line := 77, holders := [5, 64] }] }

theorem witness_InvalidationsAcknowledged :
    run.up ∧ (63 : Nat) < 64 ∧ 64 ≤ (71 : Nat) ∧
    (snooped.chan (tileChannel 3)).held = [waits 1 [128 * 77 + 64]] ++ waits 2 [128 * 77 + 5, 128 * 77 + 64] :: [waits 3 [128 * 77 + 5]] ∧
    (∀ y ∈ [waits 1 [128 * 77 + 64]], 128 * 77 + 5 ∉ y.acks) ∧ 128 * 77 + 5 ∈ (waits 2 [128 * 77 + 5, 128 * 77 + 64]).acks ∧
    waits 2 [128 * 77 + 5, 128 * 77 + 64] ∉ [waits 1 [128 * 77 + 64]] ∧
    waits 2 [128 * 77 + 5, 128 * 77 + 64] ∉ [waits 3 [128 * 77 + 5]] ∧ (waits 3 [128 * 77 + 5]).acks = [128 * 77 + 5] := by
  simp only [State.up]
  repeat' apply And.intro
  all_goals decide +kernel

/-- A packet at node `node`, come in by `input`, for the management cores at node 64. -/
def flight (node input urg : Nat) : Flight := { node, net := 1, input, vc := 0, wait := 0, pkt := .rsp { rsp false with urg } }

/-- Two packets contend for the bridge of tile 0; one waits at node 64 for its endpoint. -/
def traffic : State :=
  { run with noc := { run.noc with flights := [flight 0 1 4, flight 0 9 15, flight 64 15 4] } }

theorem witness_RoutersMovePackets :
    traffic.up ∧ traffic.nocChoice 0 1 15 = some (flight 0 9 15) ∧ linkEnd 0 15 = some (64, 15) ∧
    traffic.nocChoice 64 1 9 = some (flight 64 15 4) ∧ linkEnd 64 9 = none ∧
    ({ run with noc := { run.noc with flights := [flight 0 1 14] } } : State).noc.flights = [flight 0 1 14] ∧
    pktUrg (flight 0 1 14).pkt = 14 := by
  simp only [State.up]
  repeat' apply And.intro
  all_goals decide +kernel

theorem witness_Bar2Split : run.up ∧ (4096 : Nat) ≤ 4096 ∧ (zeros 4096).length = 4096 := by
  simp only [State.up]
  repeat' apply And.intro
  all_goals decide +kernel


/- Witnesses: Boolean processors, clusters, memory models, bridges, rigging. -/

theorem witness_ProcessorsCompute :
    ((List.replicate 8 (({ opc := 5, fidx := 0, sd := 127, sc := 1, sb := 64, sa := 95 } : Bpi), 0xFFFF)).length = 8) ∧
    (∀ x ∈ List.replicate 8 (({ opc := 5, fidx := 0, sd := 127, sc := 1, sb := 64, sa := 95 } : Bpi), 0xFFFF), x.1.opc = 5) ∧
    ((0 : Bus).getLsbD 127 = false ∧ (BitVec.allOnes 128).getLsbD 127 = true) := by
  repeat' apply And.intro
  all_goals decide +kernel

theorem witness_DataStoreWrites : (63 : Nat) < 64 ∧ (131 : Nat) < 132 ∧ (127 : Nat) < 128 ∧ ¬ ((127 : Nat) = 127 ∧ 1 % 2 = 0 % 2) := by
  repeat' apply And.intro
  all_goals decide +kernel

theorem witness_WriteTargets : (run.sched 0).win ≤ 0 ∧ (7 : Nat) < ({ run.sched 0 with win := 8 } : Sched).win := by
  repeat' apply And.intro
  all_goals decide +kernel

/-- As `run`, with every yard of tile 0 open. -/
def go : State := { run with clk := { run.clk with opened := [1, 0x40] ++ (List.range 13).map (leafYard 0) } }

/-- As `go`, with the first control word of C0 of tile 0 waiting for a word in RX0. -/
def stayed : State := go.putMem (aCtl 0 0 0) (bytesOfNat 32 (4 * 2 ^ 18))

theorem witness_ClusterStepsAct_1 :
    go.up ∧ (go.rgn (regionOfTile 0)).usage.clusters.contains (0, 0) = true ∧ go.clocked (cluLeaf 0 (go.phys 0 0)) = true ∧
    (go.setRgn 0 { go.rgn 0 with haltAt := some 0 }).regionHold 0 0 0 0 0 = true ∧ go.regionHold 0 0 0 0 0 = false ∧
    go.bitOf (aCluStatus 0 0) 18 = false ∧ stayed.stay 0 0 0 (stayed.sched 0) (stayed.ctl 0 0 0) 0 0 = some 3 ∧
    go.stay 0 0 0 (go.sched 0) (go.ctl 0 0 0) 0 0 = none ∧ go.stepOf 0 0 = 0 ∧ go.periodOf 0 0 = 0 := by
  simp only [State.up]
  repeat' apply And.intro
  all_goals decide +kernel

theorem witness_ClusterStepsAct_3 :
    ((go.setEcc (aCtl 0 0 0) 2).touched 0 0 0 0 (go.sched 0)).any (fun x => (go.setEcc (aCtl 0 0 0) 2).eccMax x.addr x.len == 2) = true ∧
    (go.touched 0 0 0 0 (go.sched 0)).any (fun x => go.eccMax x.addr x.len == 2) = false ∧
    run.clocked (cluLeaf 0 (run.phys 0 0)) = false ∧ (go.rgn 0).usage.clusters.contains (0, 5) = false := by
  repeat' apply And.intro
  all_goals decide +kernel

theorem witness_ClusterStepsAct_2 :
    bit ((go.setBit (aCluStatus 0 1) 12 true).reg (aCluStatus 0 (go.phys 0 1))) 12 = true ∧
    bit ((go.setBit (aCluStatus 0 1) 12 true).reg (aCluStatus 0 (go.phys 0 1))) 17 = false ∧
    go.halted (regionOfTile 0) = false ∧ go.fenced (regionOfTile 0) = false ∧ go.rgnState (regionOfTile 0) ≠ 5 ∧
    (go.setFld aReefStat 0 3 1).level = 1 ∧ (go.setFld aReefStat 0 3 2).level = 2 := by
  repeat' apply And.intro
  all_goals decide +kernel

/-- A read of generation 0 in phase `phase`, or a write. -/
def acc (write : Bool) (phase : MmPhase) : MmAcc := { write, size := 8, addr := 0x10_0000_0040, data := 5, gen := false, since := 0, phase }

/-- Cluster C0 of tile 0 with `n` read results in MMR and a read in `phase` behind a write. -/
def reads (n : Nat) (phase : MmPhase) : State :=
  go.setClu 0 { mm := List.replicate n (acc false .inMmr) ++ [acc true .sent, acc false phase, acc false .waiting],
                mmr := List.replicate n { gen := true, data := 9 } }

/-- Cluster C0 of tile 0 with one access waiting. -/
def mmWaits (write : Bool) (addr : Nat) : State := go.setClu 0 { mm := [{ acc write .waiting with addr }] }

/-- Clusters C0 and C1 of tile 0 with accesses of one bank waiting, that of C1 older. -/
def rival : State := (go.setClu 0 { mm := [{ acc true .waiting with since := 2 }] }).setClu 1 { mm := [acc false .waiting] }

theorem witness_MemoryModelUnits_1 :
    ({ (reads 0 .sent).clu 0 with mm := dropRefused ((reads 0 .sent).clu 0).mm } : Clu).candidate = none ∧
    ({ (mmWaits true 0x7_1234_5678).clu 0 with mm := dropRefused ((mmWaits true 0x7_1234_5678).clu 0).mm } : Clu).candidate =
      some ([], { acc true .waiting with addr := 0x7_1234_5678 }, []) ∧
    (({ acc true .waiting with addr := 0x7_1234_5678 } : MmAcc).dram = true ∧ go.noc.tags = []) ∧
    ({ (mmWaits true 0x10_0000_0040).clu 0 with mm := dropRefused ((mmWaits true 0x10_0000_0040).clu 0).mm } : Clu).candidate =
      some ([], acc true .waiting, []) ∧ run.clocked (leafYard 0 10) = false := by
  repeat' apply And.intro
  all_goals decide +kernel

theorem witness_MemoryModelUnits_2 :
    (let s1 := (mmWaits true 0x10_0000_0040).setClu 0 ((mmWaits true 0x10_0000_0040).clu 0)
     (s1.rivals 0 0).all fun x => decide (0 < x.1 ∨ (0 = x.1 ∧ go.nameOf 0 0 ≤ x.2))) = true ∧ (go.bank 0).queue = [] ∧
    (let s1 := rival.setClu 0 (rival.clu 0)
     (s1.rivals 0 0).all fun x => decide (2 < x.1 ∨ (2 = x.1 ∧ go.nameOf 0 0 ≤ x.2))) = false := by
  repeat' apply And.intro
  all_goals decide +kernel

theorem witness_MemoryModelUnits_3 :
    ((reads 4 .done).clu (cluKey 0 (go.phys 0 0))).mmr.length = 4 ∧ nextReturn [] ((reads 0 .done).clu (cluKey 0 (go.phys 0 1))).mm = none := by
  repeat' apply And.intro
  all_goals decide +kernel

theorem witness_MemoryModelUnits :
    go.clocked (leafYard 0 10) = true ∧ (reads 3 .done).up ∧
    nextReturn [] ((reads 3 .done).clu (cluKey 0 (go.phys 0 0))).mm =
      some (List.replicate 3 (acc false .inMmr) ++ [acc true .sent], acc false .done, [acc false .waiting]) ∧
    ((reads 3 .done).clu (cluKey 0 (go.phys 0 0))).mmr.length < 4 ∧
    nextReturn [] ((reads 0 .refused).clu (cluKey 0 (go.phys 0 0))).mm =
      some ([acc true .sent], acc false .refused, [acc false .waiting]) := by
  simp only [State.up]
  repeat' apply And.intro
  all_goals decide +kernel

/-- Window 3 of cluster C1 of tile 0: 64 bytes, writable where `wr`. -/
def win (wr : Bool) : State := go.setReg (aMmw 0 1 3) (BitVec.ofNat 64 (1 + 2 * b2n wr + 4 * 6 + 2 ^ 16 * 7))

theorem witness_WindowsBound :
    ((win true).window 0 1 3).en = true ∧ 7 * 8 + 8 ≤ ((win true).window 0 1 3).size ∧ ((win true).window 0 1 3).wr = true ∧
    15 * 4 + 4 ≤ ((win false).window 0 1 3).size ∧ ¬ 8 * 8 + 8 ≤ ((win true).window 0 1 3).size ∧
    ((win false).window 0 1 3).wr = false := by
  repeat' apply And.intro
  all_goals decide +kernel

/-- Region E15 released, with words on every part of its bridge. -/
def bridged : State :=
  (run.setRgn 15 { released := true }).setBr 15
    { ticks := [3, 4], up := [{ gen := true, data := 6 }], down := [{ gen := false, data := 7 }, { gen := true, data := 8 }],
      regd := [{ n := 2, w := 9, at_ := 100 }], outCount := 3 }

theorem witness_BridgesAct_1 :
    bridged.up ∧ (∀ i, i < 8 → ∀ j, j < 8 → i < j → cluKey (homeTile 15) (bridged.phys (homeTile 15) i) ≠ cluKey (homeTile 15) (bridged.phys (homeTile 15) j)) ∧
    (bridged.br 15).up = [{ gen := true, data := 6 }] ∧ (bridged.br 15).ticks = [3, 4] ∧
    ((List.range 8).all fun c => decide ((bridged.clu (cluKey (homeTile 15) (bridged.phys (homeTile 15) c))).brg.length < 2)) = true ∧
    (bridged.br 15).down = [{ gen := false, data := 7 }, { gen := true, data := 8 }] ∧ bridged.bitOf (aRgnRt 15) 10 = false ∧
    (bridged.setBit (aRgnRt 15) 10 true).bitOf (aRgnRt 15) 10 = true ∧ (bridged.rgn 15).stepping = false ∧
    (bridged.br 15).regd = [{ n := 2, w := 9, at_ := 100 }] := by
  simp only [State.up]
  repeat' apply And.intro
  all_goals decide +kernel

theorem witness_BridgesAct_2 :
    ((List.range 8).all fun c =>
      let s := bridged.setClu (cluKey (homeTile 15) 7) { brg := List.replicate 2 { gen := false, data := 0 } }
      decide ((s.clu (cluKey (homeTile 15) (s.phys (homeTile 15) c))).brg.length < 2)) = false := by
  decide +kernel

/-- Region E0 released, with a swap asked for and a delivery entry in its other half. -/
def swapping : State := (go.setBit (aRgnRig 0) 1 true).setReg (aSlot 0 12 1 1023 1) 1

theorem witness_HalfSwapInverts :
    swapping.up ∧ (swapping.rgn 0).released = true ∧ swapping.bitOf (aRgnRig 0) 1 = true ∧ swapping.fenced 0 = false ∧
    swapping.halted 0 = false ∧ ((swapping.setBit (aDbgHalt 0) 4 true).fenced 0 = true ∨ (swapping.setBit (aDbgHalt 0) 4 true).halted 0 = true) ∧
    ((swapping.slots 0).any fun e => decide (e.owner = 0 ∧ e.half = 1 - swapping.fldOf (aRgnRig 0) 0 1 ∧ 5 ≤ e.out)) = true ∧
    swapping.tb < (swapping.setRgn 0 { swapping.rgn 0 with swapTick := swapping.tb + 1 }).tb + 1 ∧ swapping.unbegun 0 < 2 ^ 48 ∧
    run.up ∧ ((bridged.setBit (aRgnRig 15) 1 true).rgn 15).released = true ∧ (bridged.setBit (aRgnRig 15) 1 true).bitOf (aRgnRig 15) 1 = true ∧
    bridged.bitOf (aRgnRig 15) 1 = false := by
  simp only [State.up]
  repeat' apply And.intro
  all_goals decide +kernel

/-- A bundle of slot `slot`. -/
def bundle (slot : Nat) : Bundle := { data := 0xABCD, gen := false, half := 0, slot, vc := 0, owner := 0 }

/-- Bundles on the links into tile 0, one waiting to leave tile 0 east and one to a delivery, one parked for RX1 of C1. -/
def rigging : State :=
  let s := go.forEach (List.range 4) fun s p => s.setSw (neighbour 0 p) { flying := [{ out := farInput p, b := bundle 1023 }] }
  let s := s.setReg (aSlot 0 12 0 1023 1) (BitVec.ofNat 64 (1 + 2 ^ 23 * 1 + 2 ^ 31))
  s.setSw 0 { bufs := [(2, [{ b := bundle 5, todo := [(1, 6), (5, 0)], since := 3 }]), (4, [{ b := bundle 9, todo := [(1, 7)], since := 4 }])],
              parked := [{ out := 12, half := 0, slot := 1023, gen := false, data := 77 }], back := [(2, 1)], used := [(2, 1)] }

/-- As `rigging`, with an entry at output E that takes what comes from W. -/
def matching : State := rigging.setReg (aSlot 0 1 0 1000 1) (BitVec.ofNat 64 (1 + 32 * 0xF3 + 2 ^ 13 * 1023))

/-- Three bundles waiting to leave tile 0 east. -/
def contended : State :=
  go.setSw 0 { bufs := [(2, [{ b := bundle 5, todo := [(1, 6)], since := 3 }]), (4, [{ b := bundle 9, todo := [(1, 7), (4, 3)], since := 4 }])],
               inj := [(1, [{ b := bundle 8, todo := [(1, 8)], since := 1 }])] }

theorem witness_BundlesMove_4 :
    matching.matches 0 0xF3 0 1023 ≠ [] ∧ rigging.matches 0 0xF0 0 1023 = [] ∧
    ((firstOf (((contended.sw 0).contenders 1).filter (contended.outRoom 0 1))).map fun x => x.slot) = some 8 ∧
    ((((contended.sw 0).contenders 1).filter fun y => y.slot != 8).getLast?.map fun y => y.slot) = some 7 ∧
    rigging.absorbing 0 = false := by
  repeat' apply And.intro
  all_goals decide +kernel

theorem witness_BundlesMove_1 :
    rigging.up ∧ (takeFirst (fun (f : Flying) => f.out == farInput 0) (rigging.sw (neighbour 0 0)).flying).isSome = true ∧
    (takeFirst (fun (f : Flying) => f.out == farInput 3) (rigging.sw (neighbour 0 3)).flying).isSome = true ∧
    (firstOf (((rigging.sw 0).contenders 1).filter (rigging.outRoom 0 1))).isSome = true ∧
    (firstOf (((rigging.sw 0).contenders 5).filter (rigging.outRoom 0 5))).isSome = true := by
  simp only [State.up]
  repeat' apply And.intro
  all_goals decide +kernel

theorem witness_BundlesMove_2 :
    (rigging.sw 0).parked = [{ out := 12, half := 0, slot := 1023, gen := false, data := 77 }] ∧
    false = bit (rigging.reg (aRxSeq 0 (rigging.phys 0 1))) (32 * 1 + 20) ∧
    (slotAt 0 (rigging.slotHi 0 12 0 1023)).seq = fld (rigging.reg (aRxSeq 0 (rigging.phys 0 1))) (32 * 1 + 10) 10 ∧
    b2n (slotAt 0 (rigging.slotHi 0 12 0 1023)).latch = 1 ∧
    rigging.phys 0 (slotAt 0 (rigging.slotHi 0 12 0 1023)).dest = rigging.phys 0 1 ∧
    (rigging.clu (cluKey 0 (rigging.phys 0 1))).rx1.length < 2 ∧ mapGet (fun _ => 0) (rigging.sw 0).back (2 * 1 + 0) = 0 + 1 := by
  repeat' apply And.intro
  all_goals decide +kernel

/-- SHROUD is set and output S of tile 0 has an entry of region E0 in its last slot. -/
def shrouded : State := (go.setBit (aCfgRgn 0) 5 true).setReg (aSlot 0 2 0 1023 1) 1

theorem witness_BundlesMove_3 : shrouded.shroudServes (regionOfTile 0) 0 2 0 1023 = true ∧ (shrouded.sw 0).offers = [] := by
  repeat' apply And.intro
  all_goals decide +kernel

/- Witnesses: stream arrays, scratchpads, direct writes, DRAM, glue fabric and pins. -/

/-- Read port 0 and write port 7 of tile 9's array are enabled; an element waits on port 7. -/
def array : State :=
  let s := ((run.setBit (aArrCfg 9) 0 true).setReg (aPortCfg 9 0) 1).setReg (aPortCfg 9 7) 3
  let s := s.setArr 9 { ports := [(7, { fifo := [{ addr := 0x10_0120_0040, elem := 2, val := some 0xFFFF_FFFF, ecc := 1 }] })] }
  { s with clk := { s.clk with opened := [1, 0x49, leafYard 9 9, leafYard 9 12] } }

/-- Its entry 0: kind, TARGET and RUN as given, context 0. -/
def entry (kind target r : Nat) : State :=
  array.putWord (aSeqEntry 9 0) (BitVec.ofNat 64 (2 ^ 8 * r + 2 ^ 16 * kind + 2 ^ 27 * target))

/-- Split mode, with a context for the H thread. -/
def split (s : State) : State := (s.setBit (aArrCfg 9) 1 true).putMem (aContext 9 0 + 0x600) [1]

/-- A context whose FU 0 adds constants. -/
def addCfg : List Byte := words [(8, 2)]

/-- Thread `n` in run step `r`. -/
def running (s : State) (n r : Nat) : State :=
  (s.setArr 9 ((s.arr 9).setThread n { run := r, frame := 2, begun := true, cfg := addCfg })).setBit (aArrStatus 9) 16 (n == 1)

/-- Run step 1 with an MNI slot that waits for cluster 0. -/
def mniWaits : State :=
  (entry 0 7 0).setArr 9 { h := { run := 1, begun := true, cfg := zeros 0x660 ++ [1] } }

/-- Run step 1, in which FU 0 reads the head of read port 0. -/
def arrReading (ecc : Nat) (val : Option W32) : State :=
  (entry 0 7 0).setArr 9 { h := { run := 1, begun := true, cfg := words [(8, 1 + 2 ^ 6 * 13)] },
                           ports := [(0, { fifo := [{ addr := 0, elem := 0, val, ecc }] })] }

theorem witness_ArraySteps_1 :
    array.up ∧ array.clocked (leafYard 9 9) = true ∧ array.threadRuns 9 0 = true ∧ array.threadRuns 9 1 = false ∧
    ((array.arr 9).thread 0).run = 0 ∧ array.threadHold 9 0 = none ∧ (array.setBit (aDbgHalt 0) 4 true).threadHold 9 0 = some 6 ∧
    array.frameMayBegin 0 1 = some 4 ∧ array.frameMayBegin 0 0 = none ∧ ((array.arr 9).thread 0).begun = false ∧
    (array.setEcc (aSeqEntry 9 0) 2).eccMax (aSeqEntry 9 0) 8 = 2 ∧ array.eccMax (aSeqEntry 9 0) 8 ≠ 2 ∧
    (entry 6 0 0).seqInvalid 9 0 ((entry 6 0 0).seqEntry 9 0) = true ∧ array.seqInvalid 9 0 (array.seqEntry 9 0) = false := by
  simp only [State.up]
  repeat' apply And.intro
  all_goals decide +kernel

theorem witness_ArraySteps_2 :
    (array.setEcc (aContext 9 0) 2).eccOf (aContext 9 0) = 2 ∧ array.ecc = [] ∧
    (split (entry 5 7 0)).threadRuns 9 0 = true ∧ (split (entry 5 7 0)).seqInvalid 9 0 ((split (entry 5 7 0)).seqEntry 9 0) = false ∧
    ((split (entry 5 7 0)).seqEntry 9 0).kind = 5 ∧ (split (entry 5 7 0)).tBusy 9 = false ∧
    ((split (entry 5 7 0)).setBit (aArrStatus 9) 16 true).tBusy 9 = true ∧ ((entry 1 7 0).seqEntry 9 0).kind = 1 := by
  repeat' apply And.intro
  all_goals decide +kernel

theorem witness_ArraySteps_3 :
    (running (entry 1 7 0) 0 1).threadRuns 9 0 = true ∧ (((running (entry 1 7 0) 0 1).arr 9).thread 0).run ≠ 0 ∧
    (running (entry 1 7 0) 0 1).threadHold 9 0 = none ∧ (running (entry 1 7 0) 0 1).mniReady 9 0 = true ∧ mniWaits.mniReady 9 0 = false ∧
    (arrReading 0 none).portHold 9 0 1 = some 2 ∧ (arrReading 2 (some 5)).portHold 9 0 1 = none ∧ (arrReading 2 (some 5)).headBad 9 0 = true ∧
    ((running (entry 1 7 0) 0 1).seqEntry 9 0).run < 1 ∧ 1 ≤ ((running (entry 1 7 3) 0 1).seqEntry 9 0).run := by
  repeat' apply And.intro
  all_goals decide +kernel

theorem witness_ArraySteps_4 :
    (running (entry 1 7 0) 0 1).portHold 9 0 1 = none ∧ (running (entry 1 7 0) 0 1).headBad 9 0 = false ∧
    (running (entry 1 7 0) 0 1).descrBad 9 0 1 = false ∧ (running (entry 1 7 0) 0 1).rfBad 9 0 = none ∧
    (running (split (entry 4 7 0)) 1 1).threadRuns 9 1 = true ∧ 0 ∈ (running (entry 1 7 0) 0 1).fusOf 9 0 ∧
    ((running (entry 1 7 0) 0 1).fuStep 9 0 0).isSome = true := by
  repeat' apply And.intro
  all_goals decide +kernel

/-- The descriptor of read port 0: 4-byte elements of stride 4 from `addr`, with FLAGS `f`. -/
def streams (addr f : Nat) : State := array.putMem (aDescr 9 0) (words [(8, addr), (4, 4), (4, 10), (2, 0), (1, 0), (1, f)])

theorem witness_StreamPortsAct_1 :
    array.fenced 0 = false ∧ array.arrOn 9 = true ∧ array.portIs 9 0 0 = true ∧ ((array.arr 9).port 0).done = false ∧
    array.arrStopped 9 = false ∧ ((array.arr 9).port 0).fifo.length < 64 ∧ array.portDescr 9 0 = 0 ∧ array.portIs 9 7 0 = false ∧
    (array.setEcc (aDescr 9 0) 2).eccMax (aDescr 9 0) 32 = 2 ∧ (streams 0x10_0120_0010 0).eccMax (aDescr 9 0) 32 ≠ 2 ∧
    (descrOf ((streams 0x10_0120_0010 0).bytes (aDescr 9 0) 32)).at 0 = 0x10_0120_0010 ∧ ((array.arr 9).port 0).idx = 0 ∧
    (descrOf ((streams 0x1010 2).bytes (aDescr 9 0) 32)).noCache = true ∧ (descrOf ((streams 0x1010 0).bytes (aDescr 9 0) 32)).noCache = false ∧
    array.noc.tags = [] ∧ (array.arr 9).cache = [] ∧ (array.arr 9).fills = [] := by
  repeat' apply And.intro
  all_goals decide +kernel

theorem witness_StreamPortsAct_2 :
    array.portIs 9 7 1 = true ∧ ((array.arr 9).port 7).storing = false ∧ (array.setReg (aArrStatus 9) 0x60000).bitOf (aArrStatus 9) 17 = true ∧
    (array.setReg (aArrStatus 9) 0x60000).arrRegionHold 9 0 = false ∧ (array.setReg (aArrStatus 9) 0x60000).fldOf (aArrStatus 9) 18 3 = 1 ∧
    ((({ cache := [{ line := 0x40, data := zeros 64, ecc := 0 }] } : Arr).cache.find? fun c => c.line == 0x1014 / 64 && c.ecc != 2).isSome = true) := by
  repeat' apply And.intro
  all_goals decide +kernel

/-- The same with good check bits. -/
def arrayGood : State := array.setArr 9 { ports := [(7, { fifo := [{ addr := 0x10_0120_0040, elem := 2, val := some 5, ecc := 0 }] })] }

theorem witness_StreamPortsAct_3 :
    ((arrayGood.arr 9).port 7).fifo = [{ addr := 0x10_0120_0040, elem := 2, val := some 5, ecc := 0 }] ∧
    ((arrayGood.arr 9).port 7).storing = false ∧ 0x10_0000_0000 + 0x20_0000 * 9 ≤ (0x10_0120_0040 : Nat) := by
  repeat' apply And.intro
  all_goals decide +kernel

/-- A request of one word at the last word of bank 15 of tile 9. -/
def word (src : BankSrc) (write : Bool) : BankReq :=
  { src, write, addr := 0x10_013F_FFF8, len := 8, data := words [(8, 0x1122_3344)], poison := false, lost := 0, got := [], bad := false }

/-- That bank with one request. -/
def bank (src : BankSrc) (write : Bool) : State := array.setBank (bankKey 9 15) { queue := [word src write] }

/-- A request from the packet network for that word. -/
def bankRq (o : Origin) : Req := { rq .rd 9 1 0x10_013F_FFF8 8 [] with origin := o }

theorem witness_BankGrants :
    array.clocked (leafYard 9 12) = true ∧ ((bank (.mm 3) false).bankGrant 9 15).2.isSome = true ∧
    ((bank (.sa 7) true).bankGrant 9 15).2.isSome = true ∧ ((bank (.noc (bankRq .mgmt)) false).bankGrant 9 15).2.isSome = true ∧
    ((bank (.dbg (bankRq .jtag)) true).bankGrant 9 15).2.isSome = true ∧
    ((bank (.dbg (bankRq .jtag)) true).bankGrant 9 15).2.map (·.src) = some (.dbg (bankRq .jtag)) := by
  repeat' apply And.intro
  all_goals decide +kernel

/-- A write of three bytes of that word. -/
def part3 : BankReq := { word (.sa 2) true with addr := 0x10_013F_FFFA, len := 3, data := words [(3, 0x112233)] }

theorem witness_BankGrants_2 :
    (bank (.mm 3) false).bankChoice 9 15 = some (word (.mm 3) false, false) ∧ (bank (.mm 3) false).bankLeaving 9 15 = false ∧
    ((bank (.mm 3) false).bank (bankKey 9 15)).second = none ∧ (word (.mm 3) false).bad = false ∧
    (array.setBank (bankKey 9 15) { queue := [part3] }).bankChoice 9 15 = some (part3, false) ∧ part3.addr % 8 + part3.len ≤ 8 ∧
    part3.data.length = part3.len ∧ (array.bank (bankKey 9 15)).queue = [] ∧
    ((array.setBank (bankKey 9 15) { second := some part3 }).bank (bankKey 9 15)).second = some part3 ∧ array.bankState 9 15 = 0 := by
  repeat' apply And.intro
  all_goals decide +kernel

theorem witness_BankWordAndPower_1 :
    (bank (.mm 3) false).bankState 9 15 = 0 ∧ ((bank (.mm 3) false).bank (bankKey 9 15)).waking = false ∧
    ((bank (.mm 3) true).bank (bankKey 9 15)).zeroing = false ∧ ((bank (.mm 3) true).bank (bankKey 9 15)).queue = [word (.mm 3) true] ∧
    (word (.mm 3) true).addr % 8 = 0 ∧ (word (.mm 3) true).data.length = 8 ∧ (word (.mm 3) true).len = 8 ∧ (word (.mm 3) true).got = [] := by
  repeat' apply And.intro
  all_goals decide +kernel

theorem witness_BankWordAndPower_2 :
    ((array.setBank (bankKey 9 15) { owed := [0x10_013F_FFF8] }).bank (bankKey 9 15)).owed = [0x10_013F_FFF8] ∧
    (array.setBank (bankKey 9 15) { owed := [0x10_013F_FFF8] }).bankState 9 15 = 0 ∧
    ((array.setBank (bankKey 9 15) { waking := true }).bank (bankKey 9 15)).waking = true ∧
    ((array.setBank (bankKey 63 15) { zeroing := true, lost := true }).bank (bankKey 63 15)).zeroing = true := by
  repeat' apply And.intro
  all_goals decide +kernel

/-- Region E0 halted in ecycle 5. -/
def halt5 : State := (run.setBit (aDbgHalt 0) 4 true).setFld (aRgnEcycle 0) 0 48 5

/-- DCO_CFG: enabled, 5000 kHz, tolerance 2000 ppm. -/
def dcoV : W64 := BitVec.ofNat 64 (1 + 8 * 5000 + 2 ^ 23 * 2000)

theorem witness_WritesReachTargets :
    halt5.up ∧ halt5.bankUsed 9 0 = false ∧
    (halt5.setRgn 0 { halt5.rgn 0 with usage := { banks := [(9, 0)] } }).bankUsed 9 0 = true ∧ halt5.srcRuns (halt5.fldOf (aGclkSel 7) 0 4) = true ∧
    halt5.srcRuns 7 = false ∧ halt5.responder (writeOf halt5.part .mgmt (aSpPwr 9) (regBytes 0xFFFF_FFFF)) = none ∧
    dcoInRange dcoV = true ∧ dcoInRange (dcoV + 1#64 <<< 23) = false ∧
    halt5.responder (writeOf halt5.part .mgmt (aSlot 9 12 1 1023 1) (regBytes 1)) = none ∧
    halt5.slotWritable (aSlot 9 12 1 1023 1) 1 = true ∧ halt5.slotWritable (aSlot 9 12 0 1023 0) 1 = false ∧
    0x14_0000_0000 ≤ (0x14_07F0_0000 : Nat) ∧ frameOk ((0x14_0700_0000 - 0x14_0000_0000) / 128) = true ∧
    halt5.glueFenced ((0x14_0700_0000 - 0x14_0000_0000) / 2 ^ 24) = true := by
  simp only [State.up]
  repeat' apply And.intro
  all_goals decide +kernel

theorem witness_TargetsGuard :
    0x16_0000_0000 ≤ (0x16_0003_FFC0 : Nat) ∧ (0x16_0003_FFC0 : Nat) < 0x16_0004_0000 ∧ Origin.jtag ≠ .mgmt ∧
    0x16_0003_FFC0 + 64 ≤ 0x16_0004_0000 ∧ placeOf State.reset.part 0x1F_FFFF_FFF8 = .nowhere := by
  repeat' apply And.intro
  all_goals decide +kernel

/-- Channel 63 with a request at its port and `n` transactions held. -/
def dram (op : ReqOp) (len n : Nat) : State :=
  run.setChan 63
    { port := [{ req := rq op 63 2 (channelWord 63 0) len [], fences := 0 }], zeroed := true,
      held := (List.range n).map fun i =>
        { slot := i, req := rq .rd 63 2 0 8 [], data := [], poison := false, awaitData := false, acks := [], inved := false } }

/-- Status of that request. -/
def dramSt (op : ReqOp) (len : Nat) : Nat :=
  let s := dram op len 0
  let q := rq op 63 2 (channelWord 63 0) len []
  if reqFormed q then ownerStatus (s.ownerOf q.addr) false q.origin (q.op != .rd) else stMalformed

theorem witness_DramAdmits_1 :
    ((dram .rd 3 0).chan 63).port = [{ req := rq .rd 63 2 (channelWord 63 0) 3 [], fences := 0 }] ∧
    ((dram .rd 3 0).chan 63).zeroed = true ∧ dramSt .rd 3 ≠ stOk ∧ dramSt .rd 8 = stOk ∧ dramSt .wrb 64 = stOk := by
  repeat' apply And.intro
  all_goals decide +kernel

theorem witness_DramAdmits_2 :
    freeSlot ((dram .rd 8 48).chan 63).held = none ∧ freeSlot ((dram .rd 8 47).chan 63).held = some 47 ∧
    freeSlot ((dram .wrb 64 0).chan 63).held = some 0 := by
  repeat' apply And.intro
  all_goals decide +kernel

/-- A transaction of channel 63 that may be performed. -/
def txn (op : ReqOp) (data : List Byte) : Txn :=
  { slot := 47, req := rq op 63 2 (channelWord 63 2) 8 data, data, poison := false, awaitData := false, acks := [], inved := true }

/-- Channel 63 holds it. -/
def perform (op : ReqOp) (data : List Byte) : State := run.setChan 63 { held := [txn op data], zeroed := true }

theorem witness_DramPerforms :
    (perform .rd []).up ∧ ((perform .rd []).chan 63).held = [txn .rd []] ∧ ((perform .rd []).chan 63).refreshing = false ∧
    (txn .rd []).inved = true ∧ (txn .rd []).acks = [] ∧ (perform .rd []).ketch.marking = false ∧
    (txn .wr (zeros 7 ++ [9])).req.addr % 8 = 0 ∧ (txn .wr (zeros 7 ++ [9])).data.length = 8 := by
  simp only [State.up]
  repeat' apply And.intro
  all_goals decide +kernel

/-- A write of three bytes of a word there. -/
def partial8 : State :=
  run.setChan 63 { held := [{ txn .wr [1, 2, 3] with req := rq .wr 63 2 (channelWord 63 2 + 4) 3 [1, 2, 3] }], zeroed := true }

/-- A write to a line that caches of tiles 5 and 64 hold. -/
def invalidates : State :=
  run.setChan 63 { held := [{ txn .wr (zeros 8) with inved := false }], zeroed := true,
                   snoop := [{ line := channelWord 63 2 / 64, holders := [5, 64] }] }

theorem witness_DramPerforms_2 :
    (invalidates.chan 63).held = [{ txn .wr (zeros 8) with inved := false }] ∧
    (invalidates.chan 63).snoop = [{ line := (txn .wr []).req.addr / 64, holders := [5, 64] }] ∧
    ({ txn .rd [] with acks := [7] } : Txn).acks ≠ [] ∧ 0 < ({ caErr := 2 } : Chan).caErr ∧
    (partial8.chan 63).held = [{ txn .wr [1, 2, 3] with req := rq .wr 63 2 (channelWord 63 2 + 4) 3 [1, 2, 3] }] ∧
    (channelWord 63 2 + 4) % 8 + 3 ≤ 8 ∧ (partial8.chan 63).caErr = 0 := by
  repeat' apply And.intro
  all_goals decide +kernel

/-- Channel 63 with `n` refreshes pending. -/
def pendingRef (n : Nat) (busy : Bool) : State :=
  (run.setFld (aDramRef (channelTile 63)) 48 4 n).setChan 63 { zeroed := true, refreshing := busy }

theorem witness_RefreshRules :
    (pendingRef 8 false).anyGrant = false ∧ ((pendingRef 1 false).chan 63).held = [] ∧ 0 < (pendingRef 1 false).refPending 63 ∧
    ((pendingRef 8 false).chan 63).refreshing = false ∧ (pendingRef 8 false).refPending 63 = 8 ∧
    ((pendingRef 0 true).chan 63).refreshing = true := by
  repeat' apply And.intro
  all_goals decide +kernel

theorem witness_RefreshRules_2 :
    ((pendingRef 3 false).setRgn 0 { run.rgn 0 with grant := true }).anyGrant = true ∧
    0 < ({ refreshing := true, owed := 2 } : Chan).owed ∧ 0 < (pendingRef 3 true).refPending 63 := by
  repeat' apply And.intro
  all_goals decide +kernel

theorem witness_DramUpkeep :
    (63 : Nat) < 64 ∧ 2 ^ 27 - 1 < 2 ^ 27 ∧ (perform .rd []).up ∧ ((run.setChan 63 { zeroed := true, scrub := 2 ^ 27 - 1 }).chan 63).held = [] ∧
    ((run.setChan 63 { zeroed := true, scrub := 2 ^ 27 - 1 }).chan 63).zeroed = true ∧ (run.chan 63).zeroed = false ∧ (3 : Nat) < 4 := by
  simp only [State.up]
  repeat' apply And.intro
  all_goals decide +kernel

theorem witness_MaskedWritesByOwner :
    run.up ∧ (7 : Nat) < 8 ∧ (Origin.jtag = .mgmt ∨ Origin.jtag = .jtag ∨ (Origin.jtag = .host ∧ true = false)) := by
  simp only [State.up]
  repeat' apply And.intro
  all_goals decide +kernel

/-- Bank 7 supplied; pin 255 with FILT 5 and a high level outside. -/
def pin255 : State :=
  let s := (run.setFld (aBankStat 7) 0 2 1).setReg (aPinCfg 255) 0x50000
  s.setPad 255 { s.pad 255 with level := true }

theorem witness_PinsFollow :
    pin255.up ∧ pin255.bankOn 255 = true ∧ (pin255.pad 255).s1 = pin255.pinIn 255 ∧ (pin255.pad 255).s2 = pin255.pinIn 255 ∧
    (pin255.pad 255).cnt = 0 ∧ pin255.padLevel 255 ≠ pin255.pinIn 255 ∧ run.padLevel 255 = run.pinIn 255 ∧ (3 : Nat) < 4 ∧
    ((List.range 8).all fun i => !pin255.glueRuns i) = true ∧ pin255.rawRx = [] ∧ pin255.rawLanes = [] ∧ pin255.clockedPins = [] ∧
    ((List.range 256).all fun q => !(pin255.pad q).pending) = true ∧ pin255.padHolds 255 = false := by
  simp only [State.up]
  repeat' apply And.intro
  all_goals decide +kernel

/-- Tree 7 waits for its switch to CLK_GLUE; DCO 7 is enabled, stable where `stable`, with `n` good windows. -/
def clocks (stable : Bool) (n : Nat) : State :=
  let s := { run with glue := { run.glue with switching := [7] } }
  (s.setReg (aDcoCfg 7) (dcoV)).setReg (aDcoStat 7) (BitVec.ofNat 64 (b2n stable + 4 * n))

theorem witness_GlueClocks :
    (clocks false 3).up ∧ (clocks false 3).glue.switching.contains 7 = true ∧
    (clocks false 3).srcRuns ((clocks false 3).fldOf (aGclkSel 7) 0 4) = true ∧ (clocks false 3).bitOf (aDcoCfg 7) 0 = true ∧
    (clocks false 3).pwr.href = true ∧ (-2000 : Int).natAbs ≤ (clocks false 3).fldOf (aDcoCfg 7) 23 11 ∧
    (clocks false 3).bitOf (aDcoStat 7) 0 = false ∧ (clocks false 3).fldOf (aDcoStat 7) 2 2 = 3 ∧
    (clocks false 0).fldOf (aDcoStat 7) 2 2 ≠ 3 ∧ (clocks true 0).fldOf (aDcoCfg 7) 23 11 < (2001 : Int).natAbs ∧
    (clocks true 0).bitOf (aDcoStat 7) 0 = true := by
  simp only [State.up]
  repeat' apply And.intro
  all_goals decide +kernel

/-- DCO 7 under SPREAD_REF with windows behind it. -/
def spreads (s : State) : State := (s.setReg (aDcoCfg 7) (dcoV + 4)).setErrs 7 [2000, -3000, 500]

theorem witness_GlueClocks_2 :
    (((9999 : Int) :: (spreads (clocks true 0)).errs 7).take 16).foldl (· + ·) 0 = 9499 ∧
    ((9499 : Int).natAbs > (spreads (clocks true 0)).fldOf (aDcoCfg 7) 23 11 * 4) ∧ (clocks false 0).bitOf (aDcoCfg 6) 0 = false ∧
    (clocks false 0).glue.switching.contains 6 = false := by
  repeat' apply And.intro
  all_goals decide +kernel

/-- Glue region G7 runs; a request waits at its user bus port. -/
def bus (write : Bool) : State :=
  let s := run.setFld (aCfgRgn 23) 0 3 2
  { s with glue := { s.glue with bar4 := [{ n := 6, off := 0xC0_0000, size := 4, write, value := 0 },
                                           { n := 7, off := 0xFF_FFF8, size := 8, write, value := 1 }] } }

/-- As `bus`, with a packet-network request at the port. -/
def busWaits : State :=
  let s := bus false
  { s with glue := { s.glue with bar4 := [{ n := 7, off := 0xFF_FFF8, size := 8, write := false, value := 0,
                                             req := some (rq .rd 64 5 0 8 []) }] } }

theorem witness_UserBus_2 :
    busWaits.up ∧ (busWaits.glue.bar4.map fun q => (q.n, q.req.isSome)) = [(7, true)] ∧ (busWaits.glue.bar4.all fun q => q.n != 6) = true ∧
    run.glueRuns 7 = false := by
  simp only [State.up]
  repeat' apply And.intro
  all_goals decide +kernel

theorem witness_UserBus :
    (bus true).up ∧ 0xFF_FFF8 % 8 = 0 ∧ (0xFF_FFF8 : Nat) < 0x100_0000 ∧ (bus true).glueFenced (0xFF_FFF8 / 0x20_0000) = false ∧
    (bus true).glueFenced (0x1F_FFFC / 0x20_0000) = true ∧
    (takeFirst (fun (q : Bar4Req) => q.n == 0xFF_FFF8 / 0x20_0000) (bus true).glue.bar4).isSome = true ∧
    (takeFirst (fun (q : Bar4Req) => q.n == 0xFF_FFF8 / 0x20_0000) (bus false).glue.bar4).isSome = true ∧ (bus true).glueRuns 7 = true := by
  simp only [State.up]
  repeat' apply And.intro
  all_goals decide +kernel

/- Witnesses: native lanes and Aelbel Link. -/

/-- A link record. -/
def lrec (first width mode flags : Nat) : LinkRec :=
  { first, width, mode, rate := 2, classes := 0x3F, flags, errLimit := 4, idleUs := 1, sleepMs := 1, densMin := 0 }

/-- Lane 143 as a link of one lane in state `st`. -/
def lane (mode st : Nat) (l : Link) : State :=
  (run.setLink 143 { l with conf := some (lrec 143 0 mode 7), lanes := 1 }).setReg (aLnStat 143) (BitVec.ofNat 64 st)

/-- An Aelbel link of four lanes from lane 140. -/
def wide (st flags fails : Nat) : State :=
  (run.setLink 140 { conf := some (lrec 140 2 1 flags), lanes := 4, stageFails := fails }).setReg (aLnStat 140) (BitVec.ofNat 64 st)

theorem witness_LinksComeUp_1 :
    (lane 1 1 {}).up ∧ (lane 1 1 {}).lnState 143 = 1 ∧ (lane 1 1 {}).fldOf (aLnStat 143) 8 4 ≠ 7 ∧
    (lane 1 0x701 {}).lnState 143 = 1 ∧ (lane 1 0x701 {}).fldOf (aLnStat 143) 8 4 = 7 ∧ (lane 1 2 {}).lnState 143 = 2 ∧
    (lane 1 3 {}).aelbelAt 143 = some (143, lrec 143 0 1 7) ∧ (lane 1 3 {}).lnState 143 = 3 := by
  simp only [State.up]
  repeat' apply And.intro
  all_goals decide +kernel

theorem witness_LinksComeUp_2 :
    (wide 2 3 2).aelbelAt 140 = some (140, lrec 140 2 1 3) ∧ (wide 2 3 2).lnState 140 = 2 ∧ (lrec 140 2 1 3).flags / 4 % 2 = 0 ∧
    (wide 4 3 0).lnState 140 = 4 ∧ (wide 2 7 0).aelbelAt 140 = some (140, lrec 140 2 1 7) ∧ (lrec 140 2 1 7).flags / 4 % 2 = 1 ∧
    3 < ((wide 2 7 0).link 140).lanes ∧ (wide 3 7 0).lnState 140 = 3 := by
  repeat' apply And.intro
  all_goals decide +kernel

/-- A partner's capability block for lane 143 with a width code. -/
def capBody (width : Nat) : List Byte := words [(1, 1), (1, 2), (1, width), (1, 0), (1, 143), (1, 16), (1, 3), (1, 0), (2, 0x3F), (8, 77), (2, 0)]
def capOf (width : Nat) : List Byte := capBody width ++ bytesOfNat 4 (crc32 (capBody width))

/-- Lane 143 in EXCHANGE with one such block taken and three pieces of a second. -/
def exchange (width : Nat) : State :=
  lane 1 4 { caps := [{ lane := 143, pieces := (List.range 3).map fun i => (i, sub (capOf width) (6 * i) 6), last := capOf width, agreed := false }] }

/-- A CAP control block. -/
def piece (width i : Nat) : List Byte := words [(1, 0xC6), (1, i)] ++ sub (capOf width) (6 * i) 6

/-- The link once the block has been taken up. -/
def taken (s : State) (b : List Byte) : Link := (s.link 143).setCapRx (((s.link 143).capRx 143).take b)

theorem witness_LinksComeUp_3 :
    (exchange 0).aelbelAt 143 = some (143, lrec 143 0 1 7) ∧ (exchange 0).lnState 143 = 4 ∧ (piece 0 3).length = 8 ∧
    leNum (piece 0 3) 0 1 = 0xC6 ∧ leNum (piece 0 3) 1 1 < 4 ∧ (taken (exchange 0) (piece 0 2)).lanes = 1 ∧
    ((taken (exchange 0) (piece 0 2)).capRx 143).agreed = false ∧ ((taken (exchange 0) (piece 0 3)).capRx 143).agreed = true ∧
    (taken (exchange 0) (piece 0 3)).conf = some (lrec 143 0 1 7) ∧ ((taken (exchange 1) (piece 1 3)).capRx 143).agreed = true := by
  repeat' apply And.intro
  all_goals decide +kernel

theorem witness_LinksComeUp_4 :
    ((exchange 1).setLink 143 (taken (exchange 1) (piece 1 3))).capAccepts 143 (lrec 143 0 1 7)
      ((taken (exchange 1) (piece 1 3)).capRx 143).last = false := by
  decide +kernel

theorem witness_LinksComeUp_5 :
    ((exchange 0).setLink 143 (taken (exchange 0) (piece 0 3))).capAccepts 143 (lrec 143 0 1 7)
      ((taken (exchange 0) (piece 0 3)).capRx 143).last = true := by
  decide +kernel

/-- A partner's block for lane `140 + i` of four, with a width code. -/
def capOf4 (width i : Nat) : List Byte :=
  let b := words [(1, 1), (1, 2), (1, width), (1, i), (1, 140), (1, 16), (1, 3), (1, 0), (2, 0x3F), (8, 77), (2, 0)]
  b ++ bytesOfNat 4 (crc32 b)

/-- The link of four lanes in EXCHANGE, three lanes agreed, the fourth about to be, with a block that names `width`. -/
def exchange4 (width flags : Nat) : State :=
  let s := wide 4 flags 0
  s.setLink 140 { s.link 140 with
    caps := (List.range 3).map (fun i => { lane := 140 + i, pieces := [], last := capOf4 2 i, agreed := true }) ++
      [{ lane := 143, pieces := (List.range 3).map fun i => (i, sub (capOf4 width 3) (6 * i) 6), last := capOf4 width 3, agreed := false }] }
def piece4 (width i : Nat) : List Byte := words [(1, 0xC6), (1, i)] ++ sub (capOf4 width 3) (6 * i) 6

/-- That link once the block has been taken up. -/
def taken4 (s : State) (b : List Byte) : Link := (s.link 140).setCapRx (((s.link 140).capRx 143).take b)

theorem witness_LinksComeUp_8 :
    (((List.range 4).map (140 + ·)).all fun x => ((taken4 (exchange4 0 7) (piece4 0 3)).capRx x).agreed) = true ∧
    (taken4 (exchange4 0 7) (piece4 0 3)).lanes = 4 ∧ (exchange4 0 7).aelbelAt 143 = some (140, lrec 140 2 1 7) := by
  repeat' apply And.intro
  all_goals decide +kernel

theorem witness_LinksComeUp_9 :
    ((((List.range 4).map (140 + ·)).takeWhile fun x => ((exchange4 0 7).setLink 140 (taken4 (exchange4 0 7) (piece4 0 3))).capAccepts x
      (lrec 140 2 1 7) ((taken4 (exchange4 0 7) (piece4 0 3)).capRx x).last).length) = 3 := by
  decide +kernel

theorem witness_LinksComeUp_10 :
    ([(140, 7, 3)].find? (fun (x : Nat × Nat × Nat) => x.1 == 140)) = some (140, 7, 3) ∧ leNum (words [(1, 0xC3), (1, 2), (2, 7), (4, 0)]) 2 2 = 7 ∧
    ({ agreed := true, lane := 0, pieces := [], last := [] } : CapRx).agreed = true ∧ (lane 3 5 {}).lnState 143 = 5 ∧
    ((lane 3 5 {}).link 143).hiBer = false ∧ ((lane 3 5 {}).link 143).berBad < 16 := by
  repeat' apply And.intro
  all_goals decide +kernel

theorem witness_LinksComeUp_6 :
    leNum [0xC3] 0 1 = 0xC3 ∧ (lane 1 0x45 {}).fldOf (aLnStat 143) 6 2 = 1 ∧ (lane 2 3 {}).linkAt 143 = some 143 ∧
    ((lane 2 3 {}).link 143).conf = some (lrec 143 0 2 7) ∧ 2 ≤ (lrec 143 0 2 7).mode ∧ (lane 2 3 {}).lnState 143 = 3 ∧
    (lane 3 5 {}).lnState 143 = 5 ∧ ((lane 3 5 {}).link 143).conf = some (lrec 143 0 3 7) := by
  repeat' apply And.intro
  all_goals decide +kernel

theorem witness_LinksComeUp_7 :
    decide (20275 * 100 < (if (lrec 143 0 1 7).densMin = 0 then 30 else (lrec 143 0 1 7).densMin) * 67584) = true ∧
    decide (20276 * 100 < (if (lrec 143 0 1 7).densMin = 0 then 30 else (lrec 143 0 1 7).densMin) * 67584) = false ∧
    (lane 1 5 {}).bitOf (aLnStat 143) 14 = false ∧ (lane 4 5 {}).linkAt 143 = some 143 ∧ (lrec 143 0 4 7).mode = 4 ∧
    (lane 4 5 {}).lnState 143 = 5 := by
  repeat' apply And.intro
  all_goals decide +kernel

/-- A control block with an acknowledgement field. -/
def ackBlock (seq : Nat) : List Byte :=
  let h := words [(3, 0xC0), (2, seq), (2, 0)]
  h ++ bytesOfNat 1 (crc8 (bitsOfBytes h))

/-- A link in ACTIVE with two frames not acknowledged. -/
def active (rxNext replays bad : Nat) : State :=
  lane 1 5 { retry := [(4094, [1]), (4095, [2])], txSeq := 0, rxNext, replays, crcBad := bad, classesOn := 0x3F, partnerPower := 3 }

theorem witness_FramesExchanged_1 :
    (active 0 3 0).up ∧ (active 0 3 0).lnState 143 = 5 ∧ (ackBlock 4095).length = 8 ∧ leNum (ackBlock 4095) 0 1 = 0xC0 ∧
    leNum (ackBlock 4095) 7 1 = crc8 (bitsOfBytes ((ackBlock 4095).take 7)) ∧ leNum (ackBlock 4095) 3 2 = 4095 ∧
    ((active 0 3 0).link 143).retry = [(4094, [1])] ++ (4095, [2]) :: [] ∧ (∀ g ∈ [(4094, [(1 : Byte)])], g.1 ≠ 4095) ∧
    leNum [0xC0] 7 1 = 0 ∧ leNum [0xC0, 1] 7 1 ≠ crc8 (bitsOfBytes ([0xC0, 1].take 7)) := by
  simp only [State.up]
  repeat' apply And.intro
  all_goals decide +kernel

/-- A frame of number `seq` whose content is empty. -/
def frameBody (seq : Nat) : List Byte := words [(1, 0xCA), (2, seq), (2, 9), (1, 2), (2, 5)] ++ zeros 244
def frameOf (seq : Nat) : List Byte := frameBody seq ++ bytesOfNat 4 (crc32 (frameBody seq))

theorem witness_FramesExchanged_2 : leNum (frameOf 4095) 252 4 = crc32 ((frameOf 4095).take 252) := by
  decide +kernel

theorem witness_FramesExchanged_3 :
    ([] : List Byte).length ≠ 256 ∧ (frameOf 4095).length = 256 ∧ leNum (frameOf 4095) 0 1 = 0xCA ∧ leNum (frameOf 4095) 3 2 < 4096 ∧
    ((active 4095 0 0).link 143).retry.all (fun g => g.1 != leNum (frameOf 4095) 3 2) = true ∧
    leNum (frameOf 4095) 1 2 % 4096 = ((active 4095 0 0).link 143).rxNext ∧ leNum (frameOf 4095) 8 1 % 16 = 0 ∧
    leNum (frameOf 4095) 1 2 % 4096 ≠ ((active 2047 0 0).link 143).rxNext ∧
    (((active 2047 0 0).link 143).rxNext + 4095 - leNum (frameOf 4095) 1 2 % 4096) % 4096 < 2048 ∧
    2048 ≤ (((active 2048 0 0).link 143).rxNext + 4095 - leNum (frameOf 4095) 1 2 % 4096) % 4096 := by
  repeat' apply And.intro
  all_goals decide +kernel

theorem witness_FramesExchanged_4 :
    ((active 0 2 0).link 143).retry ≠ [] ∧ (active 0 2 0).bitOf (aLnStat 143) 3 = false ∧ ((active 0 2 0).link 143).replays + 1 < 4 ∧
    ((active 0 0 4).link 143).conf = some (lrec 143 0 1 7) ∧ ((active 0 0 4).link 143).crcBad ≤ (lrec 143 0 1 7).errLimit ∧
    (lrec 143 0 1 7).errLimit < ((active 0 0 5).link 143).crcBad := by
  repeat' apply And.intro
  all_goals decide +kernel

/-- An entry of the largest size waits for a frame. -/
def txEntry : TxEntry := { cls := 5, net := 0, bytes := List.replicate 244 0x55 }
def sending : State := lane 1 5 { txq := [txEntry], classesOn := 0x3F, txSeq := 4095, retry := List.replicate 15 (0, []) }

theorem witness_FramesExchanged_5 :
    sending.bitOf (aLnStat 143) 3 = false ∧ sending.fldOf (aLnStat 143) 4 2 = 0 ∧
    (sending.link 143).retry.length < 16 * (sending.link 143).lanes ∧ (sending.link 143).txSeq < 4096 ∧
    (sending.link 143).txq = [txEntry] ∧ (sending.link 143).nextEntry [] = some txEntry ∧ txEntry.bytes.length ≤ 244 := by
  repeat' apply And.intro
  all_goals decide +kernel

/-- A link whose retry buffer is full. -/
def full : State := lane 1 5 { txq := [txEntry], classesOn := 0x3F, retry := List.replicate 16 (0, []) }

theorem witness_FramesExchanged_6 :
    (active 0 0 0).fldOf (aLnStat 143) 4 2 = 0 ∧ ((active 0 0 0).link 143).txHeld = false ∧ ((active 0 3 0).link 143).replays + 1 = 4 ∧
    8 ≤ ((active 0 7 0).link 143).replays + 1 ∧ (full.link 143).retry.length = 16 * (full.link 143).lanes ∧ (lane 1 5 {}).link 143 ≠ {} ∧
    ((active 0 0 0).link 143).txq = [] := by
  repeat' apply And.intro
  all_goals decide +kernel

theorem witness_LinkStatesChange_1 :
    (active 0 0 0).lnState 143 = 5 ∧ (active 0 0 0).bitOf (aLnStat 143) 3 = false ∧ (active 0 0 0).linkAt 143 = some 143 ∧
    ((active 0 0 0).link 143).conf = some (lrec 143 0 1 7) ∧ (lrec 143 0 1 7).flags % 2 = 1 ∧
    ((active 0 0 0).link 143).partnerPower % 2 = 1 ∧ (active 0 0 0).fldOf (aLnStat 143) 4 2 = 0 ∧
    (lrec 143 0 1 7).flags / 2 % 2 = 1 ∧ ((active 0 0 0).link 143).partnerPower / 2 % 2 = 1 ∧ (lane 3 5 {}).linkAt 143 = some 143 := by
  repeat' apply And.intro
  all_goals decide +kernel

theorem witness_LinkStatesChange_2 :
    (lane 1 0xD {}).lnState 143 = 5 ∧ (lane 1 0xD {}).bitOf (aLnStat 143) 3 = true ∧ ((lane 1 5 {}).link 143).partnerPower % 2 = 0 ∧
    ((lane 1 5 {}).link 143).partnerPower / 2 % 2 = 0 ∧ (lane 1 0x85 {}).fldOf (aLnStat 143) 6 2 = 2 := by
  repeat' apply And.intro
  all_goals decide +kernel

/-- An entry waits at a transmit direction in electrical idle (1) or sleep (2). -/
def resting (k : Nat) : State := lane 1 (5 + 16 * k) { txq := [txEntry], classesOn := 0x3F }

theorem witness_LinkStatesChange_3 :
    (resting 1).lnState 143 = 5 ∧ (resting 1).fldOf (aLnStat 143) 4 2 = 1 ∧ (((resting 1).link 143).nextEntry []).isSome = true ∧
    (resting 2).fldOf (aLnStat 143) 4 2 = 2 ∧ (resting 2).fldOf (aLnStat 143) 6 2 ≠ 2 ∧
    (((resting 2).link 143).nextEntry []).isSome = true := by
  repeat' apply And.intro
  all_goals decide +kernel

/- Witnesses: fences, releases, boot, the host port. -/

/-- Regions E0 and E15 fenced, with a bundle parked at E15's home tile and a line in its stream cache. -/
def fencing : State :=
  let s := (run.setRgn 15 { released := true }).setReg (aNocFence 15) 1
  (s.setSw (homeTile 15) { parked := [{ out := 5, half := 0, slot := 3, gen := true, data := 7 }] }).setArr (homeTile 15)
    { cache := [{ line := 5, data := zeros 64, ecc := 0 }] }

/-- A REGION_FENCE of E15 waits on channel 15. -/
def fenceCmd : MciCmd := { chan := 15, opcode := 0x30, desc := dsc (words [(4, 0x8000)]), task := .fence 0x8000 }

/-- A release of E0 and G7 that waits for its edge. -/
def rel (resume sent : Bool) : Release := { at_ := 4000, resume, es := [0], gs := [7], leadSent := sent, join := none, chan := none }
def releasing (resume sent : Bool) : State := { run with engine := { run.engine with releases := [rel resume sent] } }

/-- A tag of region E15 is out; or a bank of its tiles has a request waiting. -/
def fencingReq : State :=
  { fencing with noc := { fencing.noc with tags := [{ node := homeTile 15, port := 3, tag := 5, req := rq .rd 63 2 0 8 [], use := .mm (homeTile 15) 3 }] } }
def fencingTgt : State := fencing.setBank (bankKey (homeTile 15) 2) { queue := [word (.noc (bankRq .mgmt)) false] }

theorem witness_RegionsDrainAndRelease_3 :
    fencing.reqBusy 15 = false ∧ fencing.tgtBusy 15 = false ∧ fencingTgt.reqBusy 15 = false ∧ fencingTgt.tgtBusy 15 = true ∧
    fencingReq.reqBusy 15 = true ∧ fencingReq.tgtBusy 15 = false ∧ fencing.bitOf (aNocFence 15) 2 = false ∧
    fencing.bitOf (aNocFence 15) 3 = false ∧ fencing.mci.cmds = [] ∧ fencing.ketch.resync = none := by
  repeat' apply And.intro
  all_goals decide +kernel

theorem witness_RegionsDrainAndRelease_4 :
    ((fencing.setBit (aCfgRgn 15) 4 true).setBit (aNocFence 15) 1 true).fldOf (aNocFence 15) 0 2 = 3 ∧
    ((fencing.setBit (aCfgRgn 15) 4 true).setBit (aNocFence 15) 1 true).bitOf (aCfgRgn 15) 4 = true ∧
    ((fencing.setBit (aCfgRgn 15) 4 true).setBit (aNocFence 15) 1 true).bitOf (aCfgRgn 15) 6 = false ∧
    ({ fencing with pwr := { fencing.pwr with firmware := false } } : State).pwr.firmware = false := by
  repeat' apply And.intro
  all_goals decide +kernel

theorem witness_RegionsDrainAndRelease_1 :
    fencing.up ∧ fencing.bitOf (aNocFence 15) 0 = true ∧ fencing.bitOf (aCfgRgn 15) 4 = false ∧ (fencing.rgn 15).released = true ∧
    fencing.rigBusy 15 = false ∧ fencing.bitOf (aNocFence 15) 1 = false ∧ fencing.pwr.firmware = true := by
  simp only [State.up]
  repeat' apply And.intro
  all_goals decide +kernel

theorem witness_RegionsDrainAndRelease_2 :
    ({ fencing with mci := { fencing.mci with cmds := [fenceCmd] } } : State).mci.cmds = [fenceCmd] ∧ fenceCmd.task = .fence 0x8000 ∧
    (releasing true false).engine.releases = [rel true false] ∧ (rel true false).leadSent = false ∧
    (takeFirst (fun (r : Release) => r.leadSent && r.resume == false) (releasing false true).engine.releases).isSome = true ∧
    (takeFirst (fun (r : Release) => r.leadSent && r.resume == true) (releasing true true).engine.releases).isSome = true ∧
    (∀ tc ∈ (run.rgn 0).usage.clusters, tc.1 < 64 ∧ tc.2 < 128) := by
  repeat' apply And.intro
  all_goals decide +kernel

/-- The boot record asks for a boot from flash. -/
def fromFlash : State := { fw with sec := { fw.sec with boot := zeros 6 ++ [1] } }

theorem witness_BootAndFirmware_1 :
    fromFlash.up ∧ fromFlash.pwr.firmware = true ∧ fromFlash.engine.booted = false ∧ leNum fromFlash.bootRecord 6 1 = 1 ∧
    fromFlash.devState = 0 ∧ fromFlash.staging = false ∧
    (((({ fromFlash with engine := { fromFlash.engine with booted := true } } : State).bootSlot 0).1.bootSlot 1).1.setBit aCfgStatus 7
      true).bootFlag 0 = false ∧
    ({ fw with engine := { fw.engine with flash := some 1 } } : State).engine.flash = some 1 := by
  simp only [State.up]
  repeat' apply And.intro
  all_goals decide +kernel

/-- The firmware does not run yet, or no longer. -/
def noFw (started : Bool) (cmds : List MciCmd) : State :=
  { (fw.setBit aMastStat 0 true) with pwr := { fw.pwr with firmware := false, started }, mci := { fw.mci with cmds } }

/-- A write to the repair map is kept for it. -/
def keptFw : State := { noFw false [] with health := { (noFw false []).health with kept := [(aCluRemap 5 0, 7)] } }

/-- A request of the engine is out for the command under way. -/
def restarting : State :=
  let s := noFw true [{ fenceCmd with task := .flash }]
  { s with mci := s.mci, noc := { s.noc with tags := [{ node := 64, port := 0, tag := 5, req := rq .rd 63 2 0 8 [], use := .engine 15 }] } }

theorem witness_BootAndFirmware_4 :
    keptFw.health.kept = [(aCluRemap 5 0, 7)] ∧ keptFw.health.remaps = [] ∧ keptFw.sec.tamperRec = none ∧ keptFw.sec.bootFail = none ∧
    restarting.pwr.firmware = false ∧ fw.pwr.firmware = true ∧ (fenceCmd.chan < 16) ∧ fromFlash.isMaster = true ∧ fromFlash.pos = 0 ∧
    ({ fw with sec := { fw.sec with boot := zeros 16 ++ [1] } } : State).bootFlag 0 = true ∧ fromFlash.bitOf aCascStat 5 = false := by
  repeat' apply And.intro
  all_goals decide +kernel

theorem witness_BootAndFirmware_2 :
    (noFw false []).pwr.wiped = true ∧ (noFw false []).locked = true ∧ (noFw false []).chosenSlot = some (0, false) ∧
    (noFw true [fenceCmd]).chosenSlot = some (0, false) ∧ (noFw true [fenceCmd]).mci.cmds = [fenceCmd] ∧ fenceCmd.task ≠ .held ∧
    fenceCmd.task ≠ .heldPtr ∧ fenceCmd.task ≠ .fwRestart ∧ ({ fenceCmd with task := .fwRestart } : MciCmd).task = .fwRestart := by
  repeat' apply And.intro
  all_goals decide +kernel

/-- Lanes 140 to 143 under test for a LANE_TEST of channel 15. -/
def testing : State :=
  let w : LaneTest := { mode := 1, pattern := 0, chan := 15, lanes := [140, 141, 142, 143], durationMs := 1 }
  let s := (fw.setLink 140 { conf := some (lrec 140 2 1 7), lanes := 4, test := some w }).setFld (aLnStat 140) 0 3 6
  { s with mci := { s.mci with cmds := [{ fenceCmd with opcode := 0x52, task := .laneTest 140 }] } }

theorem witness_BootAndFirmware_3 :
    testing.up ∧ (testing.link 140).test.isSome = true ∧ testing.lnState 140 = 6 ∧ testing.pwr.firmware = true ∧ testing.mci.cmds = [{ fenceCmd with opcode := 0x52, task := .laneTest 140 }] := by
  simp only [State.up]
  repeat' apply And.intro
  all_goals decide +kernel

/-- A read of host memory is outstanding: for a request of the packet network, or for the payload of channel 15. -/
def hostRead (q : Option Req) : State :=
  { fw with host := { fw.host with reads := [{ tag := 9, chan := 15, req := q }] },
            mci := { fw.mci with cmds := [{ fenceCmd with task := .payload }] } }

theorem witness_HostPortActs :
    (hostRead none).up ∧ (hostRead none).host.reads = [{ tag := 9, chan := 15, req := none }] ∧
    (hostRead none).mci.cmds = [{ fenceCmd with task := .payload }] ∧
    (hostRead (some (rq .rd 64 5 0x18_0000_0000 8 []))).host.reads = [{ tag := 9, chan := 15, req := some (rq .rd 64 5 0x18_0000_0000 8 []) }] := by
  simp only [State.up]
  repeat' apply And.intro
  all_goals decide +kernel

/- Witnesses: cascades and Ketch pairs. -/

/-- A frame to positions 0 and 15 of both members. -/
def frame (cmd : Nat) : BitVec 80 := frMake cmd 0x8001 3 255 0xFF_FFFF_FFFC

/-- The same with its CRC inverted. -/
def badFrame (cmd : Nat) : BitVec 80 := frame cmd ^^^ (255#80 <<< 70)

theorem witness_CsyncActs_1 :
    frShaped (frame 1) = true ∧ frGood (frame 1) = true ∧ run.addressed (frame 1) = true ∧ frCmd (frame 1) = 1 ∧ fw.devState ≠ 2 ∧
    fw.addressed (frame 1) = true ∧ (fw.setFld aCfgStatus 0 3 1).csyncReady 2 = cOk ∧ run.csyncReady 3 = cOk ∧ run.csyncReady 4 = cOk ∧
    run.csyncReady 5 = cOk ∧ run.csyncReady 6 = cOk ∧ run.csyncReady 2 ≠ cOk ∧ fw.csyncReady 3 ≠ cOk := by
  repeat' apply And.intro
  all_goals decide +kernel

theorem witness_CsyncActs_2 :
    (∀ cmd ∈ [2, 3, 4, 5, 6], frShaped (frame cmd) = true ∧ frGood (frame cmd) = true ∧ frCmd (frame cmd) = cmd ∧
      frShaped (badFrame cmd) = true ∧ frGood (badFrame cmd) = false ∧ run.addressed (badFrame cmd) = true ∧ frCmd (badFrame cmd) = cmd) ∧
    (15 : Nat) < 2 ^ 16 ∧ 0xFF_FFFF_FFFC < 2 ^ 40 ∧ 0xFF_FFFF_FFFC % 4 = 0 := by
  repeat' apply And.intro
  all_goals decide +kernel

/-- The master has sent an action to positions 0 and 15; the first has answered. -/
def issue (cmd : Nat) : CsyncIssue :=
  { cmd, seq := 9, at_ := 10000, need := [0, 15], acks := [0], chan := some 15, regions := 1, join := none }
def issued (cmd refcnt : Nat) : State := { fw with refcnt, casc := { fw.casc with issue := some (issue cmd) } }

theorem witness_CsyncActs_3 :
    (issued 5 0).up ∧ (issued 5 0).casc.issue = some (issue 5) ∧ (15 : Nat) ∈ (issue 5).need ∧ (15 : Nat) ∉ (issue 5).acks ∧
    ({ issue 5 with acks := 15 :: (issue 5).acks } : CsyncIssue).full = true ∧ 10000 ≤ (issued 5 0).edgesTo (issue 5).at_ ∧
    (issued 5 1).edgesTo (issue 5).at_ < 10000 ∧ (issued 5 0).ketch.resync = none ∧ (issue 5).full = false := by
  simp only [State.up]
  repeat' apply And.intro
  all_goals decide +kernel

/-- An action stands at a device of refcnt `refcnt`. -/
def action (cmd : Nat) (committed : Bool) : CsyncAction := { cmd, seq := 9, at_ := 10000, committed, join := none }
def acting (cmd refcnt : Nat) (committed : Bool) : State :=
  { run with refcnt, casc := { run.casc with action := some (action cmd committed) } }

theorem witness_CsyncActs_4 :
    (acting 2 10000 false).casc.action = some (action 2 false) ∧ ((acting 2 10000 false).refcnt + 2 ^ 40 - 10000) % 2 ^ 40 < 2 ^ 39 ∧
    2 ^ 39 ≤ ((acting 2 9999 false).refcnt + 2 ^ 40 - 10000) % 2 ^ 40 ∧ (action 5 false).cmd ≠ 2 ∧ (action 5 false).cmd ≠ 4 ∧
    ((acting 5 0 true).passTo ((acting 5 0 true).tickOf 10000)).casc.issue = none ∧ (acting 5 0 true).mci.cmds = [] ∧ (acting 3 0 true).up := by
  simp only [State.up]
  repeat' apply And.intro
  all_goals decide +kernel

/-- A formed cascade whose master has position 15 present. -/
def formed : State := (fw.setBit aCascStat 5 true).setFld aCascStat 6 16 0x8001

/-- A follower stages an image from Halyard. -/
def halyard : State := { follower with engine := { follower.engine with staging := some { total := 4096, kind := 2, got := 232, source := 4 } } }

theorem witness_CascadesForm_1 :
    formed.up ∧ formed.isMaster = true ∧ formed.bitOf aCascStat 5 = true ∧ (15 : Nat) ≠ formed.pos ∧ formed.present.testBit 15 = true ∧
    formed.mci.cmds = [] ∧ (zeros 32).length = 32 ∧ halyard.isMaster = false ∧ halyard.role = 0 ∧
    halyard.engine.staging = some { total := 4096, kind := 2, got := 232, source := 4 } ∧ halyard.staging = true ∧ (zeros 232).length ≤ 232 ∧
    4096 ≤ stageArea ∧ 232 + (zeros 232).length < 4096 := by
  simp only [State.up]
  repeat' apply And.intro
  all_goals decide +kernel

/-- What a discovery message tells position `pos`. -/
def disc (pos : Nat) : Discovery :=
  { pos, member := 2, part := 0x9640, stepping := 1, speed15 := true, lane := 143, hops := 15, id := 7, xlat := 5 }

/-- Counts are gathered for a JOIN_PREP. -/
def joining (l : List (Nat × Nat)) : State := let s := issued 3 0; { s with casc := { s.casc with joinCounts := l } }

theorem witness_CascadesForm_2 :
    (pair 5).role = 5 ∧ (joining []).casc.issue = some (issue 3) ∧ (15 : Nat) ∈ (issue 3).need ∧
    (issue 3).need.all (fun p => [(15, 7)].any fun (e : Nat × Nat) => e.1 == p) = false ∧
    (issue 3).need.all (fun p => [(0, 9), (15, 7)].any fun (e : Nat × Nat) => e.1 == p) = true ∧ follower.casc.form = none ∧
    follower.isMaster = false ∧ (disc 15).pos ≠ follower.pos ∧ (disc 3).pos = follower.pos ∧ (disc 3).member < 4 := by
  repeat' apply And.intro
  all_goals decide +kernel

/-- A follower whose link at lane 143 carries RIG. -/
def followerRig : State := follower.setLink 143 { classesOn := 4 }

theorem witness_CascadesForm_4 :
    followerRig.carriesRig (disc 15).lane = true ∧ follower.carriesRig (disc 15).lane = false ∧ ({ disc 15 with hops := 1 } : Discovery).hops = 1 ∧
    (words [(2, 1), (1, 3), (29, 0)]).length = 32 ∧ leNum (words [(2, 8), (30, 0)]) 0 2 = 8 ∧
    (List.replicate 232 (7 : Byte)).length ≤ 232 ∧ (bytesOfNat 8 0x11223344).length = 8 := by
  repeat' apply And.intro
  all_goals decide +kernel

/-- A region of a master that spans devices. -/
def spanning : State := formed.setReg (aSlot (homeTile 3) 12 0 5 1) (BitVec.ofNat 64 (1 + 32 * 0xF4))

theorem witness_CascadesForm_5 (h : Config.glueBit spanning.free (8192 + (spanning.group 3).headD 0) = true) :
    spanning.inScope (words [(2, 1), (1, 3), (29, 0)]) 3 = true ∧ 3 ∈ spanning.group 3 := by
  refine ⟨?_, by decide +kernel⟩
  have g : (leNum (words [(2, 1), (1, 3), (29, 0)]) 0 2 != 8 && (spanning.group 3).any spanning.crossDevice) = true := by decide +kernel
  exact Bool.and_eq_true_iff.mpr ⟨g, h⟩

/-- CASCADE_FORM in progress. -/
def form : Form := { chan := 15, expected := 0x8001, bExpected := 0, add := false, pair := false, links := [], found := [disc 15], bad := [] }

theorem witness_CascadesForm_3 : ({ fw with casc := { fw.casc with form := some form } } : State).casc.form = some form := by
  decide +kernel

/-- A compare record of region E0. -/
def record (flags out inp : Nat) : List Byte := words [(1, 0), (1, flags), (6, 0), (4, out), (4, inp)]

theorem witness_KetchPairsCompare_1 :
    (record 2 5 6).drop 8 = (record 0 5 6).drop 8 ∧ (record 0 5 6).drop 12 ≠ (record 2 5 7).drop 12 ∧ (pair 2).role = 2 ∧
    (pair 2).ketch.twinOut = false ∧ (record 0 5 6).drop 8 ≠ (record 0 4 6).drop 8 ∧ (record 0 5 6).drop 12 = (record 0 4 6).drop 12 ∧
    recFlags (record 1 5 6) % 2 = 1 ∧ recFlags (record 2 4 6) % 2 = 0 ∧ (pair 1).role = 1 := by
  repeat' apply And.intro
  all_goals decide +kernel

/-- Region E0 of an active member has run the first interval of its schedule. -/
def compared : State :=
  let s := ((run.setFld aCascStat 38 2 1).setFld aKetchStat 0 3 1).setClaim 4 0 16
  (s.setClu (cluKey 0 0) { period := 64 }).setClu (cluKey 0 1) { period := 64 }

theorem witness_KetchPairsCompare_2 :
    compared.up ∧ compared.comparing 0 = true ∧ compared.ketch.suspended = false ∧
    compared.ecyclesDone 0 ((compared.rgn 0).cmpBase + compared.ketchK) = true ∧ (compared.rgn 0).cmpTwin = [] ∧
    (record 0 5 6).length = 16 ∧ compared.role = 1 ∧ recRegion (record 0 5 6) < 16 ∧ recFlags (record 0 5 6) / 4 % 2 = 0 ∧
    (compared.rgn (recRegion (record 0 5 6))).cmpOwn = [] ∧ compared.isMaster = true := by
  simp only [State.up]
  repeat' apply And.intro
  all_goals decide +kernel

/- Witnesses: resets and start-up. -/

theorem witness_ResetsHold :
    State.reset.pwr.rails / 2 ^ 9 % 2 = 1 ∧ State.reset.pwr.href = true ∧ (noFw true []).locked = true ∧
    State.reset.watched (.volt 2) = true ∧ State.reset.watched .temp = true ∧ State.reset.watched .glitch = true ∧
    ({ fw with sec := { fw.sec with boot := zeros 16 ++ [4] } } : State).watched .pin = true := by
  repeat' apply And.intro
  all_goals decide +kernel

/-- Held in device reset, with every rail good again. -/
def heldReset : State := { fw with pwr := { fw.pwr with inReset := true } }

theorem witness_PartStarts :
    fw.pwr.href = true ∧ ({ fw with pwr := { fw.pwr with rails := 511 } } : State).pwr.rails / 512 % 2 = 0 ∧
    heldReset.pwr.inReset = true ∧ heldReset.pwr.rails = 1023 ∧ heldReset.pwr.href = true ∧ fw.up := by
  simp only [State.up]
  repeat' apply And.intro
  all_goals decide +kernel

/- Witnesses: the firmware's services, power, debug, trace, registers. -/

/-- A fault of E0 stands. -/
def fault (code : Nat) (internal : Bool) : Raised :=
  { code, region := 0, tile := 1, cluster := 5, ecycle := 7, detail := 9, time := 3, internal }
def faulted (code : Nat) : State := { run with raised := [fault code false, fault 1 true] }

theorem witness_FirmwareServes_1 :
    (faulted 3).up ∧ (faulted 3).pwr.firmware = true ∧ (faulted 3).raised = [fault 3 false, fault 1 true] ∧ (fault 3 false).code ≠ 8 ∧
    (faulted 3).bitOf aCascStat 5 = false ∧ (fault 8 false).code = 8 ∧ (faulted 8).role = 0 ∧ run.rgnState 0 = 2 ∧
    (∀ n < 16, n ≠ 0 → run.rgnState n ≠ 2) ∧ (run.rgn 0).lastCeLate < (run.setFld (aRgnCnt 0) 32 16 1).fldOf (aRgnCnt 0) 32 16 := by
  simp only [State.up]
  repeat' apply And.intro
  all_goals decide +kernel

/-- A byte of bank 15 of tile 63 no longer takes a write. -/
def defective : State := { fw with defects := [bankBase 63 15 + 5] }

theorem witness_FirmwareServes_3 :
    ((clocks true 0).setFine 7 (-12000)).retrims 7 = true ∧ ((clocks true 0).setFine 7 (-12000)).retrims 6 = false ∧
    ((clocks true 0).setFine 7 (-12000)).up ∧ ((clocks true 0).setFine 7 (-12000)).pwr.firmware = true := by
  simp only [State.up]
  repeat' apply And.intro
  all_goals decide +kernel

theorem witness_FirmwareServes_2 :
    fw.testable (.cluster 63 127) = true ∧
    ((unitRanges (.cluster 63 127)).any fun x => fw.defects.any fun a => decide (x.1 ≤ a ∧ a < x.1 + x.2)) = false ∧
    defective.testable (.bank 63 15) = true ∧ defective.health.lost.contains (.bank 63 15) = false ∧
    ((unitRanges (.bank 63 15)).any fun x => defective.defects.any fun a => decide (x.1 ≤ a ∧ a < x.1 + x.2)) = true := by
  repeat' apply And.intro
  all_goals decide +kernel

/-- The hottest tile at `c` °C, the package at `dw` tenths of a watt, the firmware's level and count. -/
def heat (c : Int) (dw l n : Nat) : State :=
  let s := (((fw.setFld (aTileSens 63) 0 12 (tempCode c)).setFld aPwrEst 0 16 dw).setFld aReefStat 0 3 l).setRow (clockRow true l)
  { s with clk := { s.clk with fwLevel := l, releaseMs := n } }

theorem witness_PowerPolicies_1 :
    (heat 95 0 4 0).up ∧ (heat 95 0 4 0).clk.fwLevel ≤ 4 ∧ (4 : Nat) ≤ (heat 95 0 4 0).effMax ∧
    tempCode ((heat 95 0 4 0).fldOf aReefCfg 0 8) ≤ (heat 95 0 4 0).hottest ∧ 10 * (heat 20 7001 0 0).fldOf aReefCfg 16 10 < 7001 ∧
    ¬ tempCode ((heat 20 6651 0 0).fldOf aReefCfg 0 8) ≤ (heat 20 6651 0 0).hottest ∧ ¬ 100 * 6651 ≤ 95 * (10 * (heat 20 6651 0 0).fldOf aReefCfg 16 10) ∧
    100 * 6650 ≤ 95 * (10 * (heat 20 6650 1 10).fldOf aReefCfg 16 10) ∧ (heat 20 6650 1 9).clk.releaseMs < 10 ∧
    10 ≤ (heat 20 6650 1 10).clk.releaseMs ∧ ((heat 20 0 4 0).setFld aReefCfg 13 3 3).effMax < 4 := by
  simp only [State.up]
  repeat' apply And.intro
  all_goals decide +kernel

/-- EMERG stands. -/
def emerg (c : Int) : State := (heat c 0 1 0).setBit aReefStat 9 true

theorem witness_PowerPolicies_2 :
    (heat 105 0 1 0).bitOf aReefStat 9 = false ∧ tempCode 105 ≤ (heat 105 0 1 0).hottest ∧ (emerg 99).bitOf aReefStat 9 = true ∧
    (emerg 99).hottest < tempCode 100 ∧ ({ fw with clk := { fw.clk with switchTo := some 3 } } : State).clk.switchTo = some 3 := by
  repeat' apply And.intro
  all_goals decide +kernel

theorem witness_PowerPolicies_3 :
    go.closeResult 0x100 = 1 ∧ go.closeResult 0x40 ≠ 1 ∧ go.closeResult 0x10D ≠ 1 ∧ (0x50A : Nat) < 4096 ∧ yardExists 0x50A = true ∧
    yardExists 0xFFF = false ∧ (go.powerBegin 15 2).bitOf (aTilePwr (homeTile 15)) 3 = true ∧ ((go.powerBegin 15 2).rgn 15).pwrTarget ≤ 2 := by
  repeat' apply And.intro
  all_goals decide +kernel

/-- The TAP in FIELD state. -/
def field (unlocked : Bool) (scope : Nat) : State := { fw with sec := { fw.sec with lifecycle := 2, unlocked, scope } }

/-- Bank 7 supplied, and cells of its last pads set, with the pads released or still latched. -/
def pinsTap (released : Bool) : State :=
  let s := fw.setFld (aBankStat 7) 0 2 1
  { s with tap := { s.tap with bsr := [(255, true, true), (254, false, true)] }, pwr := { s.pwr with padsReleased := released } }

theorem witness_TapInstructions_2 :
    (pinsTap true).padsLatched = false ∧ (pinsTap false).padsLatched = true ∧ (pinsTap false).pinsOpen = true := by
  repeat' apply And.intro
  all_goals decide +kernel

theorem witness_TapInstructions :
    fw.pinsOpen = true ∧ run.pinsOpen = false ∧ (fw.setFld (aBankStat 7) 0 2 1).fldOf (aBankStat (255 / 32)) 0 2 ≠ 0 ∧
    (field false 0).up ∧ (field false 0).jtagOpen = false ∧ (field true 0).jtagOpen = true ∧ (field true 0).scopeReaches 0x16_0000_0000 = false ∧
    fw.jtagOpen = true ∧ fw.scopeReaches 0x15_1006_0000 = true ∧ (field true 7).sec.unlocked = true ∧ (field false 0).sec.unlocked = false ∧
    ((fw.tapIr 0x10 fw.dbgOutcome 121).sendReq (ioNode (targetOf fw.part 0 0x15_1006_0000).1) 3 .jtag (2 == 2)
      (0x15_1006_0000 % 2 ^ 48) (2 ^ (3 % 4)) (bytesOfNat (2 ^ (3 % 4)) (5 : W64).toNat) fw.pos .jtag).2 = true := by
  simp only [State.up]
  repeat' apply And.intro
  all_goals decide +kernel

/-- E0 halted, to step by steps where `steps`. -/
def halted0 (steps : Bool) : State :=
  (((run.setBit (aDbgHalt 0) 4 true).setBit (aDbgHalt 0) 3 steps).setFld (aDbgHalt 0) 12 20 2).setBit (aRgnSched 0) 18 steps

theorem witness_DebugAndTraceAct_1 :
    run.up ∧ run.halted 0 = false ∧ (halted0 true).halted 0 = true ∧ ((halted0 true).sched 0).rt = true ∧
    ((halted0 false).sched 0).rt = false ∧ (halted0 false).bitOf (aDbgHalt 0) 3 = false ∧ (halted0 true).bitOf (aDbgHalt 0) 3 = true ∧
    ((0, 1) : Nat × Nat) ∈ (halted0 true).members 0 := by
  simp only [State.up]
  repeat' apply And.intro
  all_goals decide +kernel

/-- The flow source of tile 63 is enabled and has lost `lost` packets. -/
def traced (lost : Nat) : State :=
  (run.setReg (aTtCfg 63) 1).setTtSource 63 0 { lost, sinceSync := 4095 }

theorem witness_DebugAndTraceAct_2 :
    (traced 0).ttOn 63 0 = true ∧ (∀ u < 64, ∀ src < 2, ¬ (u = 63 ∧ src = 0) → (traced 0).ttOn u src = false) ∧
    ((traced 0).ttSource 63 0).lost = 0 ∧ ((traced 0).ttSource 63 0).atoms = [] ∧ ((traced 0).ttSource 63 0).sinceSync < 4096 ∧
    (traced 0).ttUsed 63 0 + 10 ≤ 2048 ∧ 0 < ((traced 70000).ttSource 63 0).lost ∧ (traced 70000).ttUsed 63 0 + 64 ≤ 2048 ∧ (traced 0).glueQuiet = true := by
  repeat' apply And.intro
  all_goals decide +kernel

/-- A packet of tile 63's tap on its way to the funnel. -/
def funReq : Req := { rq .wr 71 6 0 16 (zeros 16) with srcNode := 63, srcPort := 6, origin := .trace }

/-- A packet waits in the funnel, whose ring at the start of HOST's granule 0 has 4 KiB with its write pointer at the end. -/
def funnel (sink : Nat) : State :=
  let s := (((run.setOwner 0 0x10).setReg aFunSink (BitVec.ofNat 64 sink)).setReg aFunBase 0).setReg aFunSize 4096
  let s := (s.setReg aFunWptr 4086).setReg aFunRptr 100
  { s with trace := { s.trace with packets := [{ t := 63, src := 0, bytes := ttHead 5 0 63 0 ++ bytesOfNat 8 77 }], atFunnel := [funReq] } }

theorem witness_DebugAndTraceAct_3 :
    (funnel 0).trace.packets = [{ t := 63, src := 0, bytes := ttHead 5 0 63 0 ++ bytesOfNat 8 77 }] ∧ (funnel 0).fldOf aFunSink 0 2 = 0 ∧
    (funnel 3).fldOf aFunSink 0 2 = 3 ∧ (funnel 1).fldOf aFunSink 0 2 = 1 ∧ (funnel 1).ringRoom 10 = true ∧
    (funnel 1).fldOf aFunWptr 0 32 + 10 ≤ (funnel 1).fldOf aFunSize 0 32 ∧
    (funnel 1).ringStatus (((funnel 1).reg aFunBase).toNat + (funnel 1).fldOf aFunWptr 0 32) 10 = stOk ∧
    (funnel 1).trace.atFunnel = [funReq] ∧ funReq.srcNode = 63 ∧ ((funnel 1).setReg aFunRptr 4090).ringRoom 10 = false ∧
    run.trace.atFunnel = [] ∧ (traced 0).trace.packets = [] ∧ (traced 0).noc.tags = [] := by
  repeat' apply And.intro
  all_goals decide +kernel

theorem witness_RegisterWritesFollowAccess :
    run.up ∧ (143 : Nat) < 144 ∧ run.fenced 0 = false ∧ (0xFFF8 : Nat) < 0x1_0000 ∧ 0xFFF8 % 8 = 0 ∧
    run.bitOf aDbBusy (0xFFF8 / 0x1000) = false := by
  simp only [State.up]
  repeat' apply And.intro
  all_goals decide +kernel

/-- Beyond the ratio limits, where CLOCK_SET has been forced. -/
def undef : State := { fw with clk := { fw.clk with undef := true } }

theorem witness_CommandsComplete :
    fw.clk.undef = false ∧ undef.clk.undef = true ∧ heldReset.pwr.inReset = true ∧ heldReset.clk.undef = false ∧ anyStateOf .perstN = true ∧
    anyStateOf .startEdge = false := by
  repeat' apply And.intro
  all_goals decide +kernel

theorem witness_StepsKeepCanonical :
    (fw.putMem 0x1234 [7]).Canonical ∧ (match step { fw.putMem 0x1234 [7] with pending := [.detectPoll 143 true] } with
      | .next _ => true
      | _ => false) = true := by
  simp only [State.Canonical]
  repeat' apply And.intro
  all_goals decide +kernel

/- Well-formedness: each check refuses a term that fails it alone. -/

theorem test_wf_channel : (Instr.identify { chan := 16, flags := 0, tag := 0, raddr := 0, rmax := 0, payload := [] }).wf = false := by
  decide

theorem test_wf_targets : (RegTarget.internal (2 ^ 48)).wf = false ∧ (RegTarget.bar0 0x2_1000).wf = false ∧
    (RegTarget.internal 0x15_1007_0000).wf = true ∧ (Instr.registerWrite .host (.bar0 0) 2 0).wf = false := by decide

/-- A well-formed request of each kind, and the completions. -/
def aReq : Req :=
  { op := .rd, urg := 4, dstNode := 32, dstPort := 2, srcNode := 34, srcPort := 3, tag := 90, len := 8, origin := .region 9, dstDev := 0,
    srcDev := 0, addr := 0x1234_5678, data := [], poison := false }
def aRsp : Rsp := { grant := false, urg := 4, dstNode := 34, dstPort := 3, tag := 90, status := 0, poison := false, dstDev := 0, data := [] }
def aDat : Dat :=
  { write := false, urg := 4, dstNode := 34, dstPort := 3, tag := 90, srcNode := 32, srcPort := 2, status := 0, poison := false, dstDev := 0,
    srcDev := 0, data := [] }
def aSnp : Snp := { ack := false, urg := 4, dstNode := 34, dstPort := 3, srcNode := 32, line := 0 }

theorem test_wf_packets :
    (Instr.rd aReq).wf = true ∧ (Instr.wr aReq).wf = false ∧ (Instr.rd { aReq with len := 65 }).wf = false ∧
    (Instr.rd { aReq with dstNode := 72 }).wf = false ∧ (Instr.cpl aRsp).wf = true ∧ (Instr.grant aRsp).wf = false ∧
    (Instr.cpl { aRsp with status := 8 }).wf = false ∧ (Instr.rdata aDat).wf = true ∧ (Instr.wdata aDat).wf = false ∧
    (Instr.rdata { aDat with tag := 4096 }).wf = false ∧ (Instr.inv aSnp).wf = true ∧ (Instr.invAck aSnp).wf = false ∧
    (Instr.inv { aSnp with line := 2 ^ 30 }).wf = false ∧ endpointOk 71 8 = false := by decide

theorem test_wf_units :
    (Instr.bistPass (.cluster 64 0)).wf = false ∧ (Instr.bistPass (.bank 63 16)).wf = false ∧ (Instr.bistPass (.array 64)).wf = false ∧
    (Instr.bistPass (.cluster 63 131)).wf = true ∧ (Instr.tamperTrip (.volt 10)).wf = false ∧ (Instr.tamperTrip .pin).wf = true ∧
    (Instr.detectPoll 144 true).wf = false ∧ (Instr.clusterStep 63 128).wf = false ∧ (Instr.frameWrite .config 0x14_0000_0004 0).wf = false ∧
    (Instr.samplePreload (some [(256, true, true)])).wf = false ∧ (Instr.hostLinkUp 5 2).wf = false := by decide

theorem test_wf_discovery :
    (Instr.discoveryMessage { pos := 16, member := 0, part := 0, stepping := 0, speed15 := true, lane := 0, hops := 1, id := 7, xlat := 98 }).wf =
      false ∧
    (Instr.discoveryMessage { pos := 15, member := 2, part := 0, stepping := 0, speed15 := true, lane := 143, hops := 1, id := 15, xlat := 98 }).wf =
      true := by decide

/- Values of the manual's worked examples. -/

/-- R187's example: address 0x0000_1234_5678 lies in channel 32, in T(0,4); the next block in channel 33, in T(1,4). -/
theorem test_dram_channel : dramChannel 0x1234_5678 = 32 ∧ channelTile 32 = 32 ∧ dramChannel 0x1234_5778 = 33 ∧ channelTile 33 = 33 := by decide

/-- The adder slice's instruction after R37, its fields, and the bits that it and its neighbours give. -/
theorem test_bp_adder :
    bpiOf 0x10_1891_2140 = { opc := 1, fidx := 1, sd := 68, sc := 68, sb := 66, sa := 64 } ∧
    lut 0x9696 true true true true = true ∧ lut 0xE8E8 true true true true = true ∧ lut 0x9696 true false true true = false ∧
    lut 0xE8E8 true false true true = true := by decide

/-- The link record of chapter 11's example: lanes L020 to L023, ×4. -/
theorem test_link_record :
    let r := linkRecOf [0x14, 2, 1, 2, 0x0D, 0, 0, 0x10, 0, 0, 0, 0, 0, 0, 0, 0]
    r.first = 20 ∧ r.lanes = 4 ∧ r.classes = 0x0D ∧ r.errLimit = 16 ∧ r.covers 23 = true ∧ r.covers 24 = false := by decide

/-- z = 991 of chapter 15's example. -/
theorem test_varint : varint 7 991 = [0xDF, 0x07] ∧ varint 7 8 = [0x08] := by decide

/-- The fields of chapter 15's compare trigger 0. -/
theorem test_compare_config :
    fld 0x0000_0012_5009_0045 1 6 = 34 ∧ fld 0x0000_0012_5009_0045 15 10 = 18 ∧ bit 0x0000_0012_5009_0045 28 = true ∧
    bit 0x0000_0012_5009_0045 36 = true := by decide

/-- The routes of chapter 8's example: two hops west within x, and from column 5 to column 1 east, a tie. -/
theorem test_routes : routeOut 34 32 2 = 3 ∧ routeOut 33 32 2 = 3 ∧ routeOut 32 32 2 = 10 ∧ routeOut 29 1 2 = 1 := by decide

/-- The regions of chapter 13's thermal episode: E0 with P 16 and PACE 24, E9 with P 32 and PACE 40. -/
def thermal : State :=
  let s := ((run.setReg (aRgnSched 0) (1 + 2 ^ 18)).setReg (aRgnRt 0) 2).setFld (aCfgRgn 9) 0 3 2
  (s.setReg (aRgnSched 9) (3 + 2 ^ 18)).setReg (aRgnRt 9) 4

theorem test_rt_safe : (thermal.sched 9).per = 32 ∧ thermal.pace 9 = 40 ∧ thermal.rtSafe = 1 ∧
    (thermal.setBit aReefCfg 12 false).effMax = 4 := by decide +kernel

/-- PB12 and PB13 of chapter 9's example, held by HOST. -/
def fixture : State := (fw.setReg (aPinCfg 44) 0x10).setReg (aPinCfg 45) 0x10

theorem test_gpio_write :
    (match exec (.outMlo .host false 1 0x3000_1000) fixture with
      | .next t => t.fldOf (aOut 1) 0 32 == 0x1000 && t.fldOf (aOe 1) 0 32 == 0
      | _ => false) = true := by decide +kernel

/-- A pair of a bay as R240's 4:1 multiplexer: each LUT takes B where C is 1, else A. -/
def muxBay : Bay :=
  let w := fun k => Wire.sig (.pin k)
  { cells := [{ table := 0xCACA, a := w 0, b := w 1, c := w 4, d := w 6 }, { table := 0xCACA, a := w 2, b := w 3, c := w 4, d := w 5 }] }

theorem test_f5_mux : ((List.range 64).all fun x =>
    muxBay.f5 (fun w => match w with
      | .sig (.pin k) => x.testBit k
      | _ => false) 0 == x.testBit (x / 16 % 4)) = true := by decide +kernel

/-- With the register at 0 a lone 1 comes again 39 and 58 bits later (R327's polynomial); the receiver undoes it. -/
theorem test_scrambler : (scramble 64 0 1).2 = 1 + 2 ^ 39 + 2 ^ 58 ∧
    (descramble 64 5 (scramble 64 5 0x123456789ABCDEF0).2).2 = 0x123456789ABCDEF0 := by decide +kernel

/-- The balls that R462, R464 and R465 name: row 51 is BN, L100_RXN at DC42, L130_TXN at BN82, PB12 at AB3. -/
theorem test_balls : rowName 51 = ['B', 'N'] ∧ laneBall 100 .rxn = ⟨79, 42⟩ ∧ rowName 79 = ['D', 'C'] ∧ laneBall 130 .txn = ⟨51, 82⟩ ∧
    gpioBall 44 = ⟨21, 3⟩ ∧ rowName 21 = ['A', 'B'] ∧ rowName 74 = ['C', 'V'] ∧ rowName 84 = ['D', 'H'] := by decide

/-- R463's total, and R481's 38.9 W of 144 lanes at RATE 2. -/
theorem test_package_sums : ballCounts.foldl (· + ·) 0 = 7056 ∧ 84 * 84 = 7056 ∧ 144 * laneMilliwatts 5 2 0 0 = 38880 := by decide

end Sys2Proof.Tests
end

/-! What the command interface's completions, the event queue and loops over lists keep, and what they write. -/

namespace Sys2Proof.Machine

/- Loops. -/

@[simp] theorem State.forEach_nil {α : Type} (s : State) (f : State → α → State) : s.forEach [] f = s := rfl

@[simp] theorem State.forEach_cons {α : Type} (s : State) (x : α) (l : List α) (f : State → α → State) :
    s.forEach (x :: l) f = (f s x).forEach l f := rfl

/-- What every element's change keeps, the changes in turn keep. -/
theorem State.forEach_invariant {α : Type} (P : State → Prop) (f : State → α → State) (hf : ∀ s x, P s → P (f s x))
    (l : List α) (s : State) (h : P s) : P (s.forEach l f) := by
  induction l generalizing s with
  | nil => exact h
  | cons x l ih => exact ih (f s x) (hf s x h)

/-- A view of the state that every element's change keeps is the same after the changes in turn. -/
theorem State.forEach_view {α β : Type} (g : State → β) (f : State → α → State) (hf : ∀ s x, g (f s x) = g s)
    (l : List α) (s : State) : g (s.forEach l f) = g s :=
  State.forEach_invariant (fun t => g t = g s) f (fun t x h => (hf t x).trans h) l s rfl

/- Bytes and fields read back. -/

theorem State.bytes_succ (s : State) (a n : Nat) : s.bytes a (n + 1) = s.byte a :: s.bytes (a + 1) n := rfl

theorem State.bytes_eq_of_byte_eq {s t : State} {a n : Nat} (h : ∀ k, a ≤ k → k < a + n → s.byte k = t.byte k) :
    s.bytes a n = t.bytes a n := by
  induction n generalizing a with
  | zero => rfl
  | succ n ih =>
    rw [State.bytes_succ, State.bytes_succ, h a (Nat.le_refl a) (by omega), ih fun k h1 h2 => h k (by omega) (by omega)]

/-- Bytes outside a write read as before. -/
theorem State.bytes_putMem_other (s : State) (a : Nat) (bs : List Byte) (b n : Nat) (h : b + n ≤ a ∨ a + bs.length ≤ b) :
    (s.putMem a bs).bytes b n = s.bytes b n :=
  State.bytes_eq_of_byte_eq fun k _ _ => s.byte_putMem_other a bs k (by omega)

/-- Bytes written read back. -/
theorem State.bytes_putMem_same (s : State) (a : Nat) (bs : List Byte) : (s.putMem a bs).bytes a bs.length = bs := by
  induction bs generalizing s a with
  | nil => rfl
  | cons b bs ih =>
    have hb : (s.putMem a (b :: bs)).byte a = b := by
      rw [State.byte_putMem, if_pos ⟨Nat.le_refl a, by simp⟩]; simp
    have hr : (s.putMem a (b :: bs)).bytes (a + 1) bs.length = bs := ih (s.putMem a [b]) (a + 1)
    rw [List.length_cons, State.bytes_succ, hb, hr]

theorem length_bytesOfNat (n v : Nat) : (bytesOfNat n v).length = n := by
  induction n generalizing v with
  | zero => rfl
  | succ n ih => simp [bytesOfNat, ih]

/-- Pieces of one length make up that length for each piece. -/
theorem length_flatMap_of_length {α β : Type} (f : α → List β) (k : Nat) (hf : ∀ x, (f x).length = k) (l : List α) :
    (l.flatMap f).length = k * l.length := by
  induction l with
  | nil => rfl
  | cons x l ih => rw [List.flatMap_cons, List.length_append, hf, ih, List.length_cons, Nat.mul_succ, Nat.add_comm]

theorem State.num_putMem_other (s : State) (a : Nat) (bs : List Byte) (b n : Nat) (h : b + n ≤ a ∨ a + bs.length ≤ b) :
    (s.putMem a bs).num b n = s.num b n := congrArg natOfBytes (s.bytes_putMem_other a bs b n h)

/-- A number written reads back as its bytes spell it. -/
theorem State.num_putMem_bytesOfNat (s : State) (a n v : Nat) :
    (s.putMem a (bytesOfNat n v)).num a n = natOfBytes (bytesOfNat n v) := by
  have h := s.bytes_putMem_same a (bytesOfNat n v)
  rw [length_bytesOfNat] at h
  exact congrArg natOfBytes h

theorem State.num_setBit (s : State) (r i : Nat) (b : Bool) (a n : Nat) : (s.setBit r i b).num a n = s.num a n := rfl

/-- A field written, of bits within the word, reads back. -/
theorem fld_putFld_same (v : W64) (lo w x : Nat) (h : lo + w ≤ 64) (hx : x < 2 ^ w) : fld (putFld v lo w x) lo w = x := by
  have e : (putFld v lo w x).extractLsb' lo w = BitVec.ofNat w x := by
    apply BitVec.eq_of_getLsbD_eq
    intro i hi
    have h64 : lo + i < 64 := by omega
    have hlo : ¬ lo + i < lo := by omega
    simp [putFld, hi, h64, hlo]
  simp [fld, e, Nat.mod_eq_of_lt hx]

theorem bit_eq_fld (v : W64) (i : Nat) : bit v i = decide (fld v i 1 = 1) := by
  have h : fld v i 1 = v.toNat / 2 ^ i % 2 := by simp [fld, Nat.shiftRight_eq_div_pow]
  rw [h, bit, BitVec.getLsbD, Nat.testBit_eq_decide_div_mod_eq]

theorem State.fldOf_setFld_same (s : State) (a lo w x : Nat) (h : lo + w ≤ 64) (hx : x < 2 ^ w) :
    (s.setFld a lo w x).fldOf a lo w = x := by
  simp [State.fldOf, State.setFld, fld_putFld_same _ _ _ _ h hx]

theorem State.fldOf_setFld_other (s : State) (a lo w x b lo' w' : Nat) (h : b ≠ a) :
    (s.setFld a lo w x).fldOf b lo' w' = s.fldOf b lo' w' := by
  simp [State.fldOf, State.reg_setFld_other _ _ _ _ _ _ h]

theorem State.bitOf_setBit_same (s : State) (a i : Nat) (b : Bool) (h : i < 64) : (s.setBit a i b).bitOf a i = b := by
  have e : (s.setBit a i b).fldOf a i 1 = b2n b := s.fldOf_setFld_same a i 1 (b2n b) (by omega) (by cases b <;> decide)
  have hb : (s.setBit a i b).bitOf a i = decide ((s.setBit a i b).fldOf a i 1 = 1) := bit_eq_fld _ _
  rw [hb, e]
  cases b <;> rfl

theorem State.bitOf_setBit_other (s : State) (a i : Nat) (b : Bool) (c j : Nat) (h : c ≠ a) :
    (s.setBit a i b).bitOf c j = s.bitOf c j := by
  simp [State.bitOf, State.reg_setBit_other _ _ _ _ _ h]

/- Interrupts and events. -/

/-- `t` differs from `s` in the record of events at most. -/
def State.EventsOnly (s t : State) : Prop := ∃ e, t = { s with events := e }

theorem State.EventsOnly.refl (s : State) : s.EventsOnly s := ⟨s.events, rfl⟩

theorem State.EventsOnly.pwr {s t : State} (h : s.EventsOnly t) : t.pwr = s.pwr := by
  obtain ⟨e, rfl⟩ := h
  rfl

theorem State.EventsOnly.noc {s t : State} (h : s.EventsOnly t) : t.noc = s.noc := by
  obtain ⟨e, rfl⟩ := h
  rfl

theorem State.EventsOnly.mci {s t : State} (h : s.EventsOnly t) : t.mci = s.mci := by
  obtain ⟨e, rfl⟩ := h
  rfl

theorem State.EventsOnly.sec {s t : State} (h : s.EventsOnly t) : t.sec = s.sec := by
  obtain ⟨e, rfl⟩ := h
  rfl

theorem State.EventsOnly.num {s t : State} (h : s.EventsOnly t) (a n : Nat) : t.num a n = s.num a n := by
  obtain ⟨e, rfl⟩ := h
  rfl

theorem State.EventsOnly.bitOf {s t : State} (h : s.EventsOnly t) (a i : Nat) : t.bitOf a i = s.bitOf a i := by
  obtain ⟨e, rfl⟩ := h
  rfl

theorem State.eventsOnly_ite {s t u : State} (p : Prop) [Decidable p] (ht : s.EventsOnly t) (hu : s.EventsOnly u) :
    s.EventsOnly (if p then t else u) := by
  split <;> assumption

theorem State.eventsOnly_msix (s : State) (v : Nat) : s.EventsOnly (s.msix v) :=
  State.eventsOnly_ite _ ⟨_, rfl⟩ ⟨_, rfl⟩

theorem State.eventsOnly_event (s : State) (code region : Nat) (data : List Byte) : s.EventsOnly (s.event code region data) :=
  State.eventsOnly_ite _ (State.eventsOnly_ite _ (State.eventsOnly_msix _ 16) ⟨_, rfl⟩) ⟨_, rfl⟩

@[simp] theorem State.msix_mci (s : State) (v : Nat) : (s.msix v).mci = s.mci := by
  rw [(s.eventsOnly_msix v).mci]

@[simp] theorem State.event_mci (s : State) (code region : Nat) (data : List Byte) : (s.event code region data).mci = s.mci := by
  rw [(s.eventsOnly_event code region data).mci]

/- Completion (R393). -/

/-- While the firmware does not run, no command completes (R32). -/
theorem State.complete_of_stopped (s : State) (c : MciCmd) (st : Nat) (result : List Byte) (h : s.pwr.firmware = false) :
    s.complete c st result = s := by
  simp [State.complete, h]

/-- A command that completes leaves the list of commands, which is all of the interface that changes. -/
theorem State.complete_mci (s : State) (c : MciCmd) (st : Nat) (result : List Byte) (h : s.pwr.firmware = true) :
    (s.complete c st result).mci = { s.mci with cmds := s.mci.cmds.filter fun x => x.chan != c.chan } := by
  simp only [State.complete, h, Bool.not_true, Bool.false_eq_true, if_false, apply_ite State.mci, State.msix_mci, State.setBit_mci,
    State.putMem_mci, State.count_mci, State.hostWrite, State.mgmtSend, ite_self]

/-- The state of a command that has completed without a result, but for the vector it signals: STATUS, RLEN 0, not BUSY, DONE. -/
def State.answered (s : State) (c : MciCmd) (st : Nat) : State :=
  let s0 : State := { s with mci := { s.mci with cmds := s.mci.cmds.filter fun x => x.chan != c.chan } }
  ((((s0.putMem (chanBase c.chan + 6) (bytesOfNat 2 st)).putMem (chanBase c.chan + 12) (bytesOfNat 4 0)).setBit
    aDbBusy c.chan false).setBit aDbDone c.chan true)

/-- A host command completes without a result: its answer stands in the channel, and at most a vector is signalled. -/
theorem State.complete_no_result (s : State) (c : MciCmd) (st : Nat) (hf : s.pwr.firmware = true) (hc : c.chan < 16) :
    (s.answered c st).EventsOnly (s.complete c st []) := by
  have h : s.complete c st [] = if descNoIrq c.desc then s.answered c st else (s.answered c st).msix c.chan := by
    unfold State.complete
    have hn : ¬ 16 ≤ c.chan := by omega
    simp only [hf, hn, Bool.not_true, Bool.false_eq_true, if_false, List.isEmpty_nil, Bool.and_false, Bool.false_and,
      State.putMem_nil, List.length_nil]
    rfl
  rw [h]
  exact State.eventsOnly_ite _ (State.EventsOnly.refl _) (State.eventsOnly_msix _ _)

theorem State.answered_pwr (s : State) (c : MciCmd) (st : Nat) : (s.answered c st).pwr = s.pwr := by
  simp [State.answered]

theorem State.answered_noc (s : State) (c : MciCmd) (st : Nat) : (s.answered c st).noc = s.noc := by
  simp [State.answered]

theorem State.answered_status (s : State) (c : MciCmd) (st : Nat) :
    (s.answered c st).num (chanBase c.chan + 6) 2 = natOfBytes (bytesOfNat 2 st) := by
  unfold State.answered
  simp only [State.num_setBit]
  rw [State.num_putMem_other _ _ _ _ _ (by omega), State.num_putMem_bytesOfNat]

theorem State.answered_length (s : State) (c : MciCmd) (st : Nat) : (s.answered c st).num (chanBase c.chan + 12) 4 = 0 := by
  unfold State.answered
  simp only [State.num_setBit]
  rw [State.num_putMem_bytesOfNat]
  rfl

theorem State.answered_busy (s : State) (c : MciCmd) (st : Nat) (hc : c.chan < 16) :
    (s.answered c st).bitOf aDbBusy c.chan = false := by
  unfold State.answered
  dsimp only
  rw [State.bitOf_setBit_other _ _ _ _ _ _ (by decide), State.bitOf_setBit_same _ _ _ _ (by omega)]

theorem State.answered_done (s : State) (c : MciCmd) (st : Nat) (hc : c.chan < 16) :
    (s.answered c st).bitOf aDbDone c.chan = true :=
  State.bitOf_setBit_same _ _ _ _ (by omega)

end Sys2Proof.Machine

/-! Boot from flash, the firmware's start, stop and restart, and the end of a lane test: what each step makes of the state. -/

namespace Sys2Proof.Machine

/- Commands of a part that runs. -/

theorem exec_flashBoot (s : State) (h : s.up) : exec .flashBoot s = .next s.flashBoot := act_up s _ h

theorem exec_flashLoadComplete (s : State) (h : s.up) (hf : s.pwr.firmware = true) :
    exec .flashLoadComplete s = .next s.flashLoaded :=
  (act_up s _ h).trans (congrArg _ (if_pos hf))

theorem exec_firmwareStart (s : State) (h : s.up) : exec .firmwareStart s = .next s.firmwareStart := act_up s _ h

theorem exec_firmwareRestart (s : State) (h : s.up) : exec .firmwareRestart s = .next s.firmwareRestart := act_up s _ h

theorem exec_laneTestEnd (n : Nat) (s : State) (h : s.up) : exec (.laneTestEnd n) s = .next (s.laneTestEnd n) :=
  act_up s (fun s => s.laneTestEnd n) h

/-- A mismatch stops the firmware that runs, and raises MGMT_LOCKSTEP with no tile and no cluster (R32, R129). -/
theorem exec_lockstepMismatch (s : State) (h : s.up) (hf : s.pwr.firmware = true) :
    exec .lockstepMismatch s =
      .next (({ s with pwr := { s.pwr with firmware := false } } : State).raise 8 0xFF 0xFF 0xFFFF 0 true) :=
  (act_up s _ h).trans (congrArg _ (if_pos hf))

/- Boot from flash (R282). -/

/-- The tries of a boot from flash: the primary slot, and after its failure the golden one, with the last one's status. -/
def State.bootTries (s : State) : State × Nat :=
  let r := s.bootSlot 0
  let g := r.1.bootSlot 1
  let flag := g.1.setBit aCfgStatus 7 true
  if r.2 = cOk then r
  else (if g.2 = cOk then flag else flag.bootFailed (bytesOfNat 2 r.2 ++ bytesOfNat 2 g.2 ++ [0]), g.2)

theorem State.bootTries_state (s : State) :
    let r := s.bootSlot 0
    let g := r.1.bootSlot 1
    let flag := g.1.setBit aCfgStatus 7 true
    s.bootTries.1 = if r.2 = cOk then r.1
      else if g.2 = cOk then flag else flag.bootFailed (bytesOfNat 2 r.2 ++ bytesOfNat 2 g.2 ++ [0]) := by
  unfold State.bootTries
  by_cases h : (s.bootSlot 0).2 = cOk
  · simp only [h, if_true]
  · simp only [h, if_false]

/-- The tries end with OK where one of the two slots does. -/
theorem State.bootTries_ok (s : State) :
    s.bootTries.2 = cOk ↔ (s.bootSlot 0).2 = cOk ∨ ((s.bootSlot 0).1.bootSlot 1).2 = cOk := by
  unfold State.bootTries
  by_cases h : (s.bootSlot 0).2 = cOk
  · simp only [h, if_true, true_or]
  · simp only [h, if_false, false_or]

/-- AUTOSTART outside a cascade starts the device once a slot has booted. -/
theorem State.flashBoot_eq (s : State) (hf : s.pwr.firmware = true) (hb : s.engine.booted = false)
    (hr : leNum s.bootRecord 6 1 = 1) (hd : s.devState = 0) (hg : s.staging = false) :
    let q := ({ s with engine := { s.engine with booted := true } } : State).bootTries
    s.flashBoot = if q.2 = cOk ∧ q.1.bootFlag 0 = true ∧ q.1.isMaster = true ∧ q.1.pos = 0 ∧ q.1.bitOf aCascStat 5 = false then
      q.1.startDevice none else q.1 := by
  have hgo : (!s.pwr.firmware || s.engine.booted || leNum s.bootRecord 6 1 != 1 || s.devState != 0 || s.staging) = false := by
    simp [hf, hb, hr, hd, hg]
  unfold State.flashBoot State.bootTries
  simp only [hgo, Bool.false_eq_true, if_false]

/-- A flash load that was asked for has been read. -/
theorem State.flashLoaded_eq (s : State) (slot : Nat) (h : s.engine.flash = some slot) :
    let r := ({ s with engine := { s.engine with flash := none } } : State).loadSlot slot
    s.flashLoaded = r.1.completeAll (fun c => c.task == .flash) r.2 := by
  simp only [State.flashLoaded, h]

/- The firmware begins (R374, R426). -/

/-- `t` has the power state, the command interface and the identity of `s`: what the firmware's first acts leave alone. -/
def State.SameControl (s t : State) : Prop := t.pwr = s.pwr ∧ t.mci = s.mci ∧ t.sec = s.sec

theorem State.SameControl.trans {s t u : State} (h : s.SameControl t) (g : t.SameControl u) : s.SameControl u := by
  obtain ⟨hp, hm, hs⟩ := h
  obtain ⟨gp, gm, gs⟩ := g
  exact ⟨gp.trans hp, gm.trans hm, gs.trans hs⟩

theorem State.sameControl_forEach {α : Type} (f : State → α → State) (hf : ∀ (s : State) x, s.SameControl (f s x)) (l : List α)
    (s : State) : s.SameControl (s.forEach l f) :=
  State.forEach_invariant (s.SameControl ·) f (fun t x h => h.trans (hf t x)) l s ⟨rfl, rfl, rfl⟩

theorem State.sameControl_ite {s t u : State} (p : Prop) [Decidable p] (ht : s.SameControl t) (hu : s.SameControl u) :
    s.SameControl (if p then t else u) := by
  split <;> assumption

theorem State.sameControl_setReg (s : State) (a : Nat) (v : W64) : s.SameControl (s.setReg a v) := ⟨rfl, rfl, rfl⟩

theorem State.sameControl_setBit (s : State) (a i : Nat) (b : Bool) : s.SameControl (s.setBit a i b) := ⟨rfl, rfl, rfl⟩

theorem State.sameControl_event (s : State) (code region : Nat) (data : List Byte) : s.SameControl (s.event code region data) :=
  have h := s.eventsOnly_event code region data
  ⟨h.pwr, h.mci, h.sec⟩

theorem State.sameControl_copyMem (s : State) (src dst n : Nat) : s.SameControl (s.copyMem src dst n) :=
  State.sameControl_forEach (fun s (e : Nat × Byte) => s.putMem (dst + (e.1 - src)) [e.2]) (fun _ _ => ⟨rfl, rfl, rfl⟩)
    (s.mem.filter fun e => decide (src ≤ e.1 ∧ e.1 < src + n)) (s.clearMem dst n)

theorem State.sameControl_mapNote (s : State) (t before : Nat) : s.SameControl (s.mapNote t before) :=
  State.sameControl_ite _ ⟨rfl, rfl, rfl⟩ ⟨rfl, rfl, rfl⟩

theorem State.sameControl_applyRemap (s : State) (t c : Nat) : s.SameControl (s.applyRemap t c) := by
  unfold State.applyRemap
  cases s.freeSpare t with
  | none => exact ⟨rfl, rfl, rfl⟩
  | some i =>
    dsimp -zeta only
    extract_lets old s1 s2 s3 s4
    clear_value old
    have h1 : s.SameControl s1 := by
      refine State.sameControl_forEach _ ?_ _ s
      intro s x
      exact s.sameControl_copyMem _ _ _
    clear_value s1
    have h2 : s1.SameControl s2 := by
      refine State.sameControl_forEach _ ?_ _ s1
      intro u n
      exact u.sameControl_setReg _ _
    clear_value s2
    have h3 : s2.SameControl s3 := State.sameControl_ite _ (s2.sameControl_setBit _ _ _) ⟨rfl, rfl, rfl⟩
    clear_value s3
    have h4 : s3.SameControl s4 := s3.sameControl_setReg _ _
    clear_value s4
    have h5 : s4.SameControl { s4 with health := { s4.health with remaps := s4.health.remaps.filter (· != (t, c)) } } :=
      ⟨rfl, rfl, rfl⟩
    exact ((h1.trans h2).trans (h3.trans h4)).trans (h5.trans (State.sameControl_mapNote _ t _))

/-- `t` has the power state and the command interface of `s`, and its identity but for the records of a tamper trip and of a
failed boot. -/
def State.SameButRecords (s t : State) : Prop :=
  t.pwr = s.pwr ∧ t.mci = s.mci ∧ ∃ r n b, t.sec = { s.sec with tamperRec := r, tamperCount := n, bootFail := b }

theorem State.SameControl.sameButRecords {s t : State} (h : s.SameControl t) : s.SameButRecords t := by
  obtain ⟨hp, hm, hs⟩ := h
  exact ⟨hp, hm, _, _, _, hs⟩

theorem State.SameButRecords.trans {s t u : State} (h : s.SameButRecords t) (g : t.SameButRecords u) : s.SameButRecords u := by
  obtain ⟨hp, hm, _, _, _, hs⟩ := h
  obtain ⟨gp, gm, r, n, b, gs⟩ := g
  exact ⟨gp.trans hp, gm.trans hm, r, n, b, by rw [gs, hs]⟩

/-- A record of a tamper trip or of a failed boot changed. -/
theorem State.sameButRecords_record (s : State) (r : Option (List Byte)) (n : Nat) (b : Option (List Byte)) :
    s.SameButRecords { s with sec := { s.sec with tamperRec := r, tamperCount := n, bootFail := b } } :=
  ⟨rfl, rfl, r, n, b, rfl⟩

/-- The firmware's first acts leave alone what the boot ROM has settled: which slot runs, and the commands that stand. -/
theorem State.firmwareBegins_control (s : State) : s.SameButRecords s.firmwareBegins := by
  unfold State.firmwareBegins
  extract_lets s1 s2 s3
  have h1 : s.SameControl s1 := State.sameControl_forEach _ (fun s (e : Nat × W64) => s.sameControl_setReg e.1 e.2) _ s
  have h2 : s1.SameControl s2 := State.sameControl_forEach _ (fun s (tc : Nat × Nat) => s.sameControl_applyRemap tc.1 tc.2) _ s1
  clear_value s2
  refine (h1.trans h2).sameButRecords.trans ?_
  have h3 : s2.SameButRecords s3 := by
    cases h : s2.sec.tamperRec with
    | none =>
      simp only [s3, h]
      exact ⟨rfl, rfl, _, _, _, rfl⟩
    | some r =>
      simp only [s3, h]
      exact (s2.sameControl_event 0x10 0xFF r).sameButRecords.trans (State.sameButRecords_record _ none _ _)
  clear_value s3
  refine h3.trans ?_
  cases s3.sec.bootFail with
  | none => exact ⟨rfl, rfl, _, _, _, rfl⟩
  | some r => exact (s3.sameControl_event 0xF 0xFF r).sameButRecords.trans (State.sameButRecords_record _ _ _ none)

/-- With no remap and no record waiting, the firmware's first acts only restore what the repair map keeps. -/
theorem State.firmwareBegins_of_quiet (s : State) (hr : s.health.remaps = []) (ht : s.sec.tamperRec = none)
    (hb : s.sec.bootFail = none) : s.firmwareBegins = s.forEach s.health.kept fun s e => s.setReg e.1 e.2 := by
  have hh : (s.forEach s.health.kept fun s e => s.setReg e.1 e.2).health = s.health :=
    State.forEach_view State.health _ (fun s (e : Nat × W64) => s.setReg_health e.1 e.2) _ s
  have hs : (s.forEach s.health.kept fun s e => s.setReg e.1 e.2).sec = s.sec :=
    State.forEach_view State.sec _ (fun s (e : Nat × W64) => s.setReg_sec e.1 e.2) _ s
  simp only [State.firmwareBegins, hh, hr, State.forEach_nil, hs, ht, hb]

/-- A register that no restored entry names keeps its value. -/
theorem State.reg_restored_other (s : State) (l : List (Nat × W64)) (a : Nat) (h : ∀ v, (a, v) ∉ l) :
    (s.forEach l fun s e => s.setReg e.1 e.2).reg a = s.reg a := by
  induction l generalizing s with
  | nil => rfl
  | cons e l ih =>
    have hne : a ≠ e.1 := fun hae => h e.2 (hae ▸ List.mem_cons_self)
    rw [State.forEach_cons, ih _ fun v hv => h v (List.mem_cons_of_mem e hv), State.reg_setReg_other _ _ _ _ hne]

/-- With no command held, there is nothing to run. -/
theorem State.runHeld_of_no_cmds (s : State) (h : s.mci.cmds = []) : s.runHeld = s := by
  simp [State.runHeld, h]

theorem State.firmwareStart_eq (s : State) (i : Nat) (fell : Bool) (hf : s.pwr.firmware = false) (hs : s.pwr.started = false)
    (hw : s.pwr.wiped = true) (hl : s.locked = true) (hc : s.chosenSlot = some (i, fell)) :
    s.firmwareStart = (s.runFirmware i fell).firmwareBegins.runHeld := by
  simp only [State.firmwareStart, hf, hs, hw, hl, hc]
  rfl

/-- With no command held, the firmware of the chosen slot runs and does its first acts. -/
theorem State.firmwareStart_of_no_cmds (s : State) (i : Nat) (fell : Bool) (hf : s.pwr.firmware = false)
    (hs : s.pwr.started = false) (hw : s.pwr.wiped = true) (hl : s.locked = true) (hc : s.chosenSlot = some (i, fell))
    (hm : s.mci.cmds = []) : s.firmwareStart = (s.runFirmware i fell).firmwareBegins := by
  obtain ⟨_, hmci, _⟩ := (s.runFirmware i fell).firmwareBegins_control
  rw [s.firmwareStart_eq i fell hf hs hw hl hc, State.runHeld_of_no_cmds _ ((congrArg Mci.cmds hmci).trans hm)]

/- Restart of the firmware (R32, R400). -/

/-- After the restart no request that is out serves a command. -/
theorem State.engineLetsGo_no_engine (s : State) : ∀ x ∈ s.engineLetsGo.noc.tags, ∀ ch, x.use ≠ .engine ch := by
  intro x hx ch
  obtain ⟨y, _, rfl⟩ := List.mem_map.mp hx
  split
  · simp
  · rename_i h
    exact h ch

theorem State.completeAll_eq (s : State) (p : MciCmd → Bool) (st : Nat) :
    s.completeAll p st = s.forEach (s.mci.cmds.filter p) fun s c => s.complete c st [] := rfl

/-- The firmware once it runs again, before the commands under way are answered (R32). -/
def State.resumed (s : State) (i : Nat) (fell : Bool) : State := (s.runFirmware i fell).engineLetsGo

theorem State.resumed_firmware (s : State) (i : Nat) (fell : Bool) : (s.resumed i fell).pwr.firmware = true := rfl

theorem State.firmwareRestart_eq (s : State) (i : Nat) (fell : Bool) (hf : s.pwr.firmware = false) (hs : s.pwr.started = true)
    (hc : s.chosenSlot = some (i, fell)) :
    s.firmwareRestart =
      (((s.resumed i fell).completeAll (fun c => c.task != .fwRestart && c.task != .held && c.task != .heldPtr) cInternal).forEach
        (s.mci.cmds.filter fun c => c.task == .fwRestart) fun s c =>
          (s.complete c cOk (bytesOfNat 4 s.sec.fwVersion)).event 0x12 0xFF
            (bytesOfNat 4 s.sec.fwVersion ++ bytesOfNat 4 s.sec.fwSvn ++ [if s.sec.fallback then 1 else 0])).runHeld := by
  simp only [State.firmwareRestart, hf, hs, hc]
  rfl

/-- A lone command leaves the list of commands when it completes. -/
theorem State.complete_cmds_single (s : State) (c : MciCmd) (st : Nat) (result : List Byte) (hf : s.pwr.firmware = true)
    (hm : s.mci.cmds = [c]) : (s.complete c st result).mci.cmds = [] := by
  rw [State.complete_mci s c st result hf, hm]
  simp

section
variable {s : State} {i : Nat} {fell : Bool} (hf : s.pwr.firmware = false) (hs : s.pwr.started = true)
  (hc : s.chosenSlot = some (i, fell))
include hf hs hc

/-- A restart with no command under way. -/
theorem State.firmwareRestart_of_no_cmds (hm : s.mci.cmds = []) : s.firmwareRestart = s.resumed i fell := by
  have hu : (s.resumed i fell).mci.cmds = [] := hm
  rw [s.firmwareRestart_eq i fell hf hs hc, State.completeAll_eq, hu, hm]
  exact State.runHeld_of_no_cmds _ hu

/-- A command under way that did not ask for the restart completes with INTERNAL. -/
theorem State.firmwareRestart_of_underWay {c : MciCmd} (hm : s.mci.cmds = [c]) (hh : c.task ≠ .held) (hp : c.task ≠ .heldPtr)
    (hr : c.task ≠ .fwRestart) : s.firmwareRestart = (s.resumed i fell).complete c cInternal [] := by
  have hu : (s.resumed i fell).mci.cmds = [c] := hm
  have hend := State.complete_cmds_single _ c cInternal [] (s.resumed_firmware i fell) hu
  have hall : (s.resumed i fell).completeAll (fun c => c.task != .fwRestart && c.task != .held && c.task != .heldPtr) cInternal =
      (s.resumed i fell).complete c cInternal [] := by
    simp [State.completeAll_eq, hu, hh, hp, hr]
  rw [s.firmwareRestart_eq i fell hf hs hc, hall, hm]
  simp [hr, State.runHeld_of_no_cmds _ hend]

/-- The command that asked for the restart completes with the version that runs, which an event reports. -/
theorem State.firmwareRestart_of_update {c : MciCmd} (hm : s.mci.cmds = [c]) (hr : c.task = .fwRestart) :
    let u := s.resumed i fell
    s.firmwareRestart = (u.complete c cOk (bytesOfNat 4 u.sec.fwVersion)).event 0x12 0xFF
      (bytesOfNat 4 u.sec.fwVersion ++ bytesOfNat 4 u.sec.fwSvn ++ [if fell then 1 else 0]) := by
  intro u
  have hu : u.mci.cmds = [c] := hm
  have hfell : u.sec.fallback = fell := rfl
  have hall : u.completeAll (fun c => c.task != .fwRestart && c.task != .held && c.task != .heldPtr) cInternal = u := by
    simp [State.completeAll_eq, hu, hr]
  have hend := State.complete_cmds_single u c cOk (bytesOfNat 4 u.sec.fwVersion) (s.resumed_firmware i fell) hu
  rw [s.firmwareRestart_eq i fell hf hs hc, hall, hm]
  simp only [hr, List.filter_cons, List.filter_nil, beq_self_eq_true, if_true, State.forEach_cons, State.forEach_nil, hfell]
  exact State.runHeld_of_no_cmds _ ((congrArg Mci.cmds (State.event_mci _ _ _ _)).trans hend)

end

/- The end of a lane test (R326). -/

/-- The state in which a link that leaves TEST stands (LN_STAT): DETECT in mode 1, LOCK in another, DOWN without a record. -/
def Link.afterTest (l : Link) : Nat :=
  match l.conf with
  | some r => if r.mode = 1 then 1 else 3
  | none => 0

/-- A link still in TEST begins anew. -/
def State.leaveTest (s : State) (n : Nat) : State :=
  if s.lnState n ≠ 6 then s else s.setFld (aLnStat n) 0 3 (s.link n).afterTest

theorem Link.afterTest_le (l : Link) : l.afterTest ≤ 3 := by
  unfold Link.afterTest
  split
  · split <;> decide
  · decide

theorem State.leaveTest_links (s : State) (n : Nat) : (s.leaveTest n).links = s.links := by
  unfold State.leaveTest
  split <;> rfl

theorem State.leaveTest_mem (s : State) (n : Nat) : (s.leaveTest n).mem = s.mem := by
  unfold State.leaveTest
  split <;> rfl

theorem State.leaveTest_mci (s : State) (n : Nat) : (s.leaveTest n).mci = s.mci := by
  unfold State.leaveTest
  split <;> rfl

/-- A link in TEST leaves it for the state its record gives. -/
theorem State.lnState_leaveTest (s : State) (n : Nat) (h : s.lnState n = 6) : (s.leaveTest n).lnState n = (s.link n).afterTest := by
  have hx := (s.link n).afterTest_le
  rw [State.leaveTest, if_neg (not_not_intro h)]
  exact State.fldOf_setFld_same _ _ _ _ _ (by decide) (by omega)

/-- A link that is not in TEST stays as it is when another leaves it. -/
theorem State.lnState_leaveTest_other (s : State) (n i : Nat) (h : s.lnState n ≠ 6) : (s.leaveTest i).lnState n = s.lnState n := by
  by_cases hi : s.lnState i = 6
  · have hne : aLnStat n ≠ aLnStat i := fun e => h (by unfold State.lnState at hi ⊢; rwa [e])
    rw [State.leaveTest, if_neg (not_not_intro hi)]
    exact State.fldOf_setFld_other _ _ _ _ _ _ _ _ hne
  · rw [State.leaveTest, if_pos hi]

/-- Once out of TEST, a link stays as it is while others leave it. -/
theorem State.lnState_leaveTests (s : State) (n : Nat) (l : List Nat) (h : s.lnState n ≠ 6) :
    (s.forEach l State.leaveTest).lnState n = s.lnState n :=
  State.forEach_invariant (fun t => t.lnState n = s.lnState n) State.leaveTest
    (fun t i ht => (t.lnState_leaveTest_other n i (ht ▸ h)).trans ht) l s rfl

/-- The state after a lane test of link `n`, before its command is answered: the links under test begin anew, `n` first. -/
def State.testOver (s : State) (n : Nat) (w : LaneTest) : State :=
  (s.draw.setLink n { s.link n with test := none }).forEach
    (n :: (s.links.filter fun e => (e.2.conf.map fun c => w.lanes.any c.covers).getD false).map (·.1)) State.leaveTest

theorem State.laneTestEnd_eq (s : State) (n : Nat) (w : LaneTest) (h : (s.link n).test = some w) :
    s.laneTestEnd n = (s.testOver n w).forEach ((s.testOver n w).mci.cmds.filter fun c => c.task == .laneTest n) fun t c =>
      t.complete c cOk (s.laneCounts w) := by
  unfold State.laneTestEnd
  rw [h]
  rfl

theorem State.testOver_mem (s : State) (n : Nat) (w : LaneTest) : (s.testOver n w).mem = s.mem :=
  State.forEach_view State.mem _ State.leaveTest_mem _ _

theorem State.testOver_mci (s : State) (n : Nat) (w : LaneTest) : (s.testOver n w).mci = s.mci :=
  State.forEach_view State.mci _ State.leaveTest_mci _ _

/-- No test runs on the link any more. -/
theorem State.testOver_test (s : State) (n : Nat) (w : LaneTest) : ((s.testOver n w).link n).test = none := by
  have hl : (s.testOver n w).links = (s.draw.setLink n { s.link n with test := none }).links :=
    State.forEach_view State.links _ State.leaveTest_links _ _
  have hn := State.link_setLink_same s.draw n { s.link n with test := none }
  rw [State.link] at hn ⊢
  rw [hl, hn]

/-- A link that was in TEST begins anew as its record says. -/
theorem State.testOver_lnState (s : State) (n : Nat) (w : LaneTest) (h : s.lnState n = 6) :
    (s.testOver n w).lnState n = (s.link n).afterTest := by
  let s1 := s.draw.setLink n { s.link n with test := none }
  have hn : (s1.leaveTest n).lnState n = (s.link n).afterTest := by
    rw [State.lnState_leaveTest s1 n h, State.link_setLink_same]
    rfl
  have hx := (s.link n).afterTest_le
  unfold State.testOver
  rw [State.forEach_cons, State.lnState_leaveTests _ _ _ (by rw [hn]; omega), hn]

/-- The counts of a lane test are 16 bytes for each lane. -/
theorem State.length_laneCounts (s : State) (w : LaneTest) : (s.laneCounts w).length = 16 * w.lanes.length := by
  unfold State.laneCounts
  rw [length_flatMap_of_length _ 16 (fun i => by rw [List.length_append, length_bytesOfNat, length_bytesOfNat]), List.length_range]

/-- A lane test ends: its command is answered with the counts. -/
theorem State.laneTestEnd_of_single (s : State) (n : Nat) (w : LaneTest) (c : MciCmd) (h : (s.link n).test = some w)
    (hm : s.mci.cmds = [c]) (hc : c.task = .laneTest n) :
    s.laneTestEnd n = (s.testOver n w).complete c cOk (s.laneCounts w) := by
  rw [s.laneTestEnd_eq n w h, State.testOver_mci, hm]
  simp [hc]

/- The statement, part by part. -/

/-- Boot from flash (R282). -/
theorem flashBoot_boots (s : State) (h : s.up) (hf : s.pwr.firmware = true) (hb : s.engine.booted = false)
    (hr : leNum s.bootRecord 6 1 = 1) (hd : s.devState = 0) (hg : s.staging = false) :
    let s0 : State := { s with engine := { s.engine with booted := true } }
    let r := s0.bootSlot 0
    let g := r.1.bootSlot 1
    let flag := g.1.setBit aCfgStatus 7 true
    let q := if r.2 = cOk then r.1 else if g.2 = cOk then flag else flag.bootFailed (bytesOfNat 2 r.2 ++ bytesOfNat 2 g.2 ++ [0])
    let auto := (r.2 = cOk ∨ g.2 = cOk) ∧ q.bootFlag 0 = true ∧ q.isMaster = true ∧ q.pos = 0 ∧ q.bitOf aCascStat 5 = false
    (¬ auto → exec .flashBoot s = .next q) ∧ (auto → exec .flashBoot s = .next (q.startDevice none)) := by
  intro s0 r g flag q auto
  have hq : s0.bootTries.1 = q := s0.bootTries_state
  have hok : s0.bootTries.2 = cOk ↔ r.2 = cOk ∨ g.2 = cOk := s0.bootTries_ok
  have he : s.flashBoot = if s0.bootTries.2 = cOk ∧ s0.bootTries.1.bootFlag 0 = true ∧ s0.bootTries.1.isMaster = true ∧
      s0.bootTries.1.pos = 0 ∧ s0.bootTries.1.bitOf aCascStat 5 = false then s0.bootTries.1.startDevice none else s0.bootTries.1 :=
    s.flashBoot_eq hf hb hr hd hg
  clear_value q g r s0
  rw [hq] at he
  simp only [hok] at he
  rw [exec_flashBoot s h, he]
  exact ⟨fun ha => congrArg _ (if_neg ha), fun ha => congrArg _ (if_pos ha)⟩

/-- Start of the firmware (R374, R426). -/
theorem firmwareStart_starts (s : State) (h : s.up) (i : Nat) (fell : Bool) (hf : s.pwr.firmware = false)
    (hs : s.pwr.started = false) (hw : s.pwr.wiped = true) (hl : s.locked = true) (hc : s.chosenSlot = some (i, fell))
    (hm : s.mci.cmds = []) :
    ∃ t, exec .firmwareStart s = .next t ∧ t.pwr.firmware = true ∧ t.pwr.started = true ∧ t.sec.active = i ∧
      t.sec.fallback = fell ∧ t.sec.pendingSlot = none ∧ s.sec.minSvn ≤ t.sec.minSvn ∧ t.mci = s.mci ∧
      (s.health.remaps = [] → s.sec.tamperRec = none → s.sec.bootFail = none →
        (∀ e, s.health.kept = [e] → t.reg e.1 = e.2) ∧ ∀ a, (∀ v, (a, v) ∉ s.health.kept) → t.reg a = s.reg a) := by
  obtain ⟨hpwr, hmci, r, n, b, hsec⟩ := (s.runFirmware i fell).firmwareBegins_control
  refine ⟨_, (exec_firmwareStart s h).trans (congrArg _ (s.firmwareStart_of_no_cmds i fell hf hs hw hl hc hm)),
    by rw [hpwr]; rfl, by rw [hpwr]; rfl, by rw [hsec]; rfl, by rw [hsec]; rfl, by rw [hsec]; rfl, ?_, hmci, ?_⟩
  · rw [hsec]
    exact Nat.le_max_left _ _
  · intro hr ht hb
    rw [(s.runFirmware i fell).firmwareBegins_of_quiet hr ht hb]
    refine ⟨fun e he => ?_, fun a ha => State.reg_restored_other _ _ a ha⟩
    have hk : (s.runFirmware i fell).health.kept = [e] := he
    rw [hk, State.forEach_cons, State.forEach_nil, State.reg_setReg_same]

/-- A restart ends a command under way with INTERNAL (R32, R400). -/
theorem firmwareRestart_ends (s : State) (h : s.up) (i : Nat) (fell : Bool) (hf : s.pwr.firmware = false)
    (hs : s.pwr.started = true) (hc : s.chosenSlot = some (i, fell)) (c : MciCmd) (hm : s.mci.cmds = [c]) (hch : c.chan < 16)
    (hh : c.task ≠ .held) (hp : c.task ≠ .heldPtr) (hr : c.task ≠ .fwRestart) :
    ∃ t, exec .firmwareRestart s = .next t ∧ t.pwr.firmware = true ∧ t.mci.cmds = [] ∧ t.num (chanBase c.chan + 6) 2 = cInternal ∧
      t.num (chanBase c.chan + 12) 4 = 0 ∧ t.bitOf aDbBusy c.chan = false ∧ t.bitOf aDbDone c.chan = true ∧
      ∀ x ∈ t.noc.tags, ∀ ch, x.use ≠ .engine ch := by
  have hend := State.complete_cmds_single (s.resumed i fell) c cInternal [] (s.resumed_firmware i fell) hm
  refine ⟨_, (exec_firmwareRestart s h).trans (congrArg _ (State.firmwareRestart_of_underWay hf hs hc hm hh hp hr)), ?_⟩
  have he := State.complete_no_result (s.resumed i fell) c cInternal (s.resumed_firmware i fell) hch
  refine ⟨?_, hend, ?_, ?_, ?_, ?_, ?_⟩
  · rw [he.pwr, State.answered_pwr, State.resumed_firmware]
  · rw [he.num, State.answered_status]; decide
  · rw [he.num, State.answered_length]
  · rw [he.bitOf, State.answered_busy _ _ _ hch]
  · rw [he.bitOf, State.answered_done _ _ _ hch]
  · rw [he.noc, State.answered_noc]
    exact (s.runFirmware i fell).engineLetsGo_no_engine

/-- The end of a lane test puts the link back and answers with the counts (R326). -/
theorem laneTestEnd_answers (s : State) (h : s.up) (n : Nat) (w : LaneTest) (c : MciCmd) (ht : (s.link n).test = some w)
    (hn : s.lnState n = 6) (hm : s.mci.cmds = [c]) (hc : c.task = .laneTest n) :
    ∃ t result, exec (.laneTestEnd n) s = .next (State.complete t c cOk result) ∧ result.length = 16 * w.lanes.length ∧
      (t.link n).test = none ∧ t.mem = s.mem ∧ t.lnState n = (s.link n).afterTest :=
  ⟨s.testOver n w, s.laneCounts w,
    (exec_laneTestEnd n s h).trans (congrArg _ (s.laneTestEnd_of_single n w c ht hm hc)), s.length_laneCounts w,
    s.testOver_test n w, s.testOver_mem n w, s.testOver_lnState n w hn⟩

/-- Settles O45: each part by the equation of its step; the firmware's first acts keep what the boot ROM settled, and a command
under way at a restart completes as any command without a result does. -/
theorem bootAndFirmware : Obligations.BootAndFirmware := by
  unfold Obligations.BootAndFirmware
  intro s h
  refine ⟨flashBoot_boots s h, ?flashLoad, ?start, ?mismatch, ?stopped, ?restart, ?laneTest⟩
  case flashLoad =>
    intro slot hf hs
    exact (exec_flashLoadComplete s h hf).trans (congrArg _ (s.flashLoaded_eq slot hs))
  case start => exact firmwareStart_starts s h
  case mismatch => exact fun hf => ⟨_, _, exec_lockstepMismatch s h hf, rfl, rfl, rfl, rfl, rfl, rfl, rfl, rfl, rfl, rfl, rfl⟩
  case stopped => exact fun hf c st result => s.complete_of_stopped c st result hf
  case restart =>
    intro i fell hf hs hc
    refine ⟨fun hm => ?_, fun c hm hch hh hp hr => firmwareRestart_ends s h i fell hf hs hc c hm hch hh hp hr, fun c hm hr => ?_⟩
    · exact (exec_firmwareRestart s h).trans (congrArg _ (State.firmwareRestart_of_no_cmds hf hs hc hm))
    · exact (exec_firmwareRestart s h).trans (congrArg _ (State.firmwareRestart_of_update hf hs hc hm hr))
  case laneTest =>
    intro n w c _ ht hn hm hc
    exact laneTestEnd_answers s h n w c ht hn hm hc

end Sys2Proof.Machine

/-! Boolean processors: the results of the instructions alone, and the multiplexer tree of a wide group. -/

namespace Sys2Proof.Machine

/- Instructions that stand alone (R35, R36). -/

/-- Only the wide opcodes 3, 4 and 5 belong to a group. -/
theorem wideSize_eq_none {opc : Nat} (h : opc < 3 ∨ 5 < opc) : wideSize opc = none := by
  unfold wideSize
  split
  · omega
  · omega
  · omega
  · rfl

/-- The only active BP gives the value of its instruction; no other BP gives one. -/
theorem bpResult_single (i : Bpi) (ft : Nat) (bus : Bus) (own : Bool) (j : Nat) (h : i.opc < 3 ∨ 5 < i.opc) :
    bpResult [(i, ft)] bus own j = (decide (j = 0) && bpValue ft i bus own) := by
  cases j with
  | zero => simp [bpResult, wideSize_eq_none h]
  | succ j => simp [bpResult]

/-- NOP and the reserved opcodes give 0. -/
theorem bpValue_reserved (ft : Nat) (i : Bpi) (bus : Bus) (own : Bool) (h : i.opc = 0 ∨ 8 ≤ i.opc) :
    bpValue ft i bus own = false := by
  unfold bpValue
  split
  any_goals omega
  rfl

/- Wide groups (R57). -/

/-- Position that selects name, the first one the lowest bit. -/
def selIndex : List Bool → Nat
  | [] => 0
  | sel :: sels => b2n sel + 2 * selIndex sels

theorem selIndex_lt (sels : List Bool) : selIndex sels < 2 ^ sels.length := by
  induction sels with
  | nil => decide
  | cons sel sels ih =>
    have hb : b2n sel ≤ 1 := by cases sel <;> decide
    rw [selIndex, List.length_cons, Nat.pow_succ]
    omega

theorem length_muxLevel (sel : Bool) (n : Nat) (v : List Bool) (h : v.length = 2 * n) : (muxLevel sel v).length = n := by
  induction n generalizing v with
  | zero => simp_all [List.length_eq_zero_iff, muxLevel]
  | succ n ih =>
    match v, h with
    | a :: b :: rest, h => rw [muxLevel, List.length_cons, ih rest (by simp only [List.length_cons] at h; omega)]

/-- A level keeps of each pair the value that its select names. -/
theorem getElem?_muxLevel (sel : Bool) (v : List Bool) (i : Nat) (h : 2 * i + 1 < v.length) :
    (muxLevel sel v)[i]? = v[b2n sel + 2 * i]? := by
  induction i generalizing v with
  | zero =>
    match v, h with
    | a :: b :: rest, _ => cases sel <;> rfl
  | succ i ih =>
    match v, h with
    | a :: b :: rest, h =>
      have hr : 2 * i + 1 < rest.length := by simp only [List.length_cons] at h; omega
      rw [muxLevel, List.getElem?_cons_succ, ih rest hr]
      rfl

/-- The tree gives the value that its selects name. -/
theorem muxTree_eq (sels v : List Bool) (h : v.length = 2 ^ sels.length) : some (muxTree sels v) = v[selIndex sels]? := by
  induction sels generalizing v with
  | nil =>
    match v, h with
    | [a], _ => rfl
  | cons sel sels ih =>
    have hv : v.length = 2 * 2 ^ sels.length := by rw [h, List.length_cons, Nat.pow_succ, Nat.mul_comm]
    have hlt := selIndex_lt sels
    rw [muxTree, ih _ (length_muxLevel sel _ v hv), getElem?_muxLevel sel v _ (by omega), selIndex]

section
variable {g : List (Bpi × Nat)} (bus : Bus) (own : Bool) (hl : g.length = 8) (hop : ∀ x ∈ g, x.1.opc = 5)
include hl hop

/-- A member of an aligned group of eight W8 members: its own value, or the tree's for the last. -/
theorem bpResult_w8 {j : Nat} {x : Bpi × Nat} (hx : g[j]? = some x) :
    bpResult g bus own j = if j = 7 then muxTree ((g.take 3).map fun y => bus.getLsbD y.1.sd) (g.map fun y => wideMember y.2 y.1 bus)
      else wideMember x.2 x.1 bus := by
  obtain ⟨hj, _⟩ := List.getElem?_eq_some_iff.mp hx
  have hj0 : j / 8 * 8 = 0 := by omega
  have hx5 : x.1.opc = 5 := hop x (List.mem_of_getElem? hx)
  have hall : (g.all fun y => y.1.opc == 5) = true := List.all_eq_true.mpr fun y hy => beq_iff_eq.mpr (hop y hy)
  have htake : g.take 8 = g := List.take_of_length_le (by omega)
  simp only [bpResult, hx, wideSize, hx5, hj0, List.drop_zero, htake, hl, hall, decide_true, Bool.and_self, if_true]

/-- The last member places the value of the member that the three selects name. -/
theorem bpResult_w8_last {x0 x1 x2 x : Bpi × Nat} (h0 : g[0]? = some x0) (h1 : g[1]? = some x1) (h2 : g[2]? = some x2)
    (hx : g[b2n (bus.getLsbD x0.1.sd) + 2 * b2n (bus.getLsbD x1.1.sd) + 4 * b2n (bus.getLsbD x2.1.sd)]? = some x) :
    bpResult g bus own 7 = wideMember x.2 x.1 bus := by
  obtain ⟨x7, h7⟩ : ∃ x7, g[7]? = some x7 := ⟨g[7], List.getElem?_eq_getElem (by omega)⟩
  have htake : g.take 3 = [x0, x1, x2] := by
    rw [List.take_add_one, List.take_add_one, List.take_add_one, h0, h1, h2]
    rfl
  have hi : selIndex [bus.getLsbD x0.1.sd, bus.getLsbD x1.1.sd, bus.getLsbD x2.1.sd] =
      b2n (bus.getLsbD x0.1.sd) + 2 * b2n (bus.getLsbD x1.1.sd) + 4 * b2n (bus.getLsbD x2.1.sd) := by
    simp only [selIndex]
    omega
  rw [bpResult_w8 bus own hl hop h7, if_pos rfl, htake]
  refine Option.some.inj ?_
  rw [muxTree_eq _ _ (by simp [hl]), List.map_cons, List.map_cons, List.map_singleton, hi, List.getElem?_map, hx]
  rfl

end

/-- Settles O18: an instruction that stands alone by its opcode; a group of eight through the multiplexer tree, which gives the
value its selects name. -/
theorem processorsCompute : Obligations.ProcessorsCompute := by
  unfold Obligations.ProcessorsCompute
  refine ⟨fun ft fidx sd sc sb sa bus own => ?alone, fun g bus own hl hop => ⟨fun j hj x hx => ?_, ?_⟩⟩
  case alone =>
    intro i n
    have h0 : ∀ opc, opc < 3 ∨ 5 < opc → bpResult [(i opc, ft)] bus own 0 = bpValue ft (i opc) bus own :=
      fun opc h => bpResult_single (i opc) ft bus own 0 h
    refine ⟨fun j => bpResult_single (i 1) ft bus own j (.inl (by decide : 1 < 3)), h0 2 (by decide), fun hd => ?_, fun hd => ?_,
      h0 7 (by decide), fun opc h => ?_⟩
    · rw [h0 6 (by decide)]
      simp [bpValue, i, hd, lut, lutIndex, b2n, n]
    · rw [h0 6 (by decide)]
      simp [bpValue, i, hd]
    · rw [h0 opc (by omega)]
      exact bpValue_reserved ft (i opc) bus own h
  · rw [bpResult_w8 bus own hl hop hx, if_neg (by omega)]
  · exact fun x0 x1 x2 x h0 h1 h2 hx => bpResult_w8_last bus own hl hop h0 h1 h2 hx

end Sys2Proof.Machine

/-! The data store of a cluster: what a write leaves in its word and in the bits that make words readable. The accesses of the
memory model: the windows that bound them. -/

namespace Sys2Proof.Machine

/- Words and bit arrays in memory. -/

theorem natOfBytes_bytesOfNat (n v : Nat) : natOfBytes (bytesOfNat n v) = v % 256 ^ n := by
  induction n generalizing v with
  | zero => simp [bytesOfNat, natOfBytes, Nat.mod_one]
  | succ n ih =>
    rw [bytesOfNat, natOfBytes, ih, Nat.pow_succ', Nat.mod_mul, BitVec.toNat_ofNat]

/-- A word written reads back. -/
theorem State.word_store_same (s : State) (a : Nat) (w : W64) (poison : Bool) :
    (s.store a (bytesOfNat 8 w.toNat) poison).word a = w := by
  have hn : (s.store a (bytesOfNat 8 w.toNat) poison).num a 8 = w.toNat := by
    have hw : w.toNat < 256 ^ 8 := w.isLt
    calc (s.store a (bytesOfNat 8 w.toNat) poison).num a 8
        = (s.putMem a (bytesOfNat 8 w.toNat)).num a 8 := rfl
      _ = w.toNat := by rw [State.num_putMem_bytesOfNat, natOfBytes_bytesOfNat, Nat.mod_eq_of_lt hw]
  rw [State.word, hn, BitVec.ofNat_toNat, BitVec.setWidth_eq]

/-- A bit outside a write of memory stays. -/
theorem State.memBit_store_other (s : State) (a : Nat) (bs : List Byte) (poison : Bool) (base i : Nat)
    (h : a + bs.length ≤ base) : (s.store a bs poison).memBit base i = s.memBit base i := by
  have hb : (s.store a bs poison).byte (base + i / 8) = s.byte (base + i / 8) := s.byte_putMem_other a bs _ (by omega)
  rw [State.memBit, hb, State.memBit]

/-- A bit written changes no word outside its array. -/
theorem State.word_putMemBit_other (s : State) (base i : Nat) (v : Bool) (a : Nat) (h : a + 8 ≤ base) :
    (s.putMemBit base i v).word a = s.word a :=
  congrArg (BitVec.ofNat 64) (s.num_putMem_other _ _ a 8 (.inl (by omega)))

theorem State.byte_putMemBit (s : State) (base i : Nat) (v : Bool) (k : Nat) :
    (s.putMemBit base i v).byte k = if k = base + i / 8 then
      (if v then s.byte k ||| 1#8 <<< (i % 8) else s.byte k &&& ~~~(1#8 <<< (i % 8))) else s.byte k := by
  rw [State.putMemBit, State.byte_putMem, List.length_singleton]
  by_cases hk : k = base + i / 8
  · rw [if_pos (by omega), if_pos hk, hk, Nat.sub_self]
    rfl
  · rw [if_neg (by omega), if_neg hk]

theorem State.memBit_putMemBit_same (s : State) (base i : Nat) (v : Bool) : (s.putMemBit base i v).memBit base i = v := by
  have hi : i % 8 < 8 := Nat.mod_lt _ (by decide)
  rw [State.memBit, State.byte_putMemBit, if_pos rfl]
  cases v <;> simp [hi]

/-- Another bit, of the same array or of another, stays. -/
theorem State.memBit_putMemBit_other (s : State) (base i : Nat) (v : Bool) (b j : Nat)
    (h : b + j / 8 ≠ base + i / 8 ∨ j % 8 ≠ i % 8) : (s.putMemBit base i v).memBit b j = s.memBit b j := by
  rw [State.memBit, State.byte_putMemBit, State.memBit]
  by_cases ha : b + j / 8 = base + i / 8
  · have hj : j % 8 < 8 := Nat.mod_lt _ (by decide)
    have hne : ¬ j % 8 - i % 8 = 0 ∨ j % 8 < i % 8 := by omega
    rw [if_pos ha]
    rcases hne with hne | hne <;> cases v <;> simp [hj, hne]
  · rw [if_neg ha]

/- The data store (R42, R44, R61). -/

/-- A cluster's words lie below its generation bits. -/
theorem aDs_lt_aDsGen {t pc bank w : Nat} (ht : t < 64) (hpc : pc < 132) (hb : bank < 2) (hw : w < 128) :
    aDs t pc bank w + 8 ≤ aDsGen t pc := by
  unfold aDs aDsGen cluIdx
  split <;> omega

/-- A cluster's generation bits lie below its valid bits. -/
theorem aDsGen_lt_aDsVal (t pc : Nat) : aDsGen t pc + 32 ≤ aDsVal t pc := by
  unfold aDsGen aDsVal
  split <;> omega

section
variable (s : State) {t pc bank w : Nat} (mask src : W64) (gb : Bool) (ht : t < 64) (hpc : pc < 132) (hb : bank < 2) (hw : w < 128)
include ht hpc hb hw

/-- The masked bits come from the source, the others stay. -/
theorem State.word_dsWrite (last : Bool) :
    (s.dsWrite t pc bank w mask src last gb).word (aDs t pc bank w) =
      (s.word (aDs t pc bank w) &&& ~~~mask) ||| (src &&& mask) := by
  have hg := aDs_lt_aDsGen ht hpc hb hw
  have hv := aDsGen_lt_aDsVal t pc
  cases last
  · exact s.word_store_same _ _ _
  · rw [State.dsWrite, if_pos rfl, State.word_putMemBit_other _ _ _ _ _ (by omega), State.word_putMemBit_other _ _ _ _ _ hg]
    exact s.word_store_same _ _ _

/-- Without LAST no bit of generation or validity changes. -/
theorem State.dsReady_dsWrite_notLast (v k : Nat) :
    (s.dsWrite t pc bank w mask src false gb).dsReady t pc v k = s.dsReady t pc v k := by
  have hg := aDs_lt_aDsGen ht hpc hb hw
  have hv := aDsGen_lt_aDsVal t pc
  have hbit : ∀ base i, aDsGen t pc ≤ base → (s.dsWrite t pc bank w mask src false gb).memBit base i = s.memBit base i :=
    fun base i h => s.memBit_store_other _ _ _ base i (by rw [length_bytesOfNat]; omega)
  unfold State.dsReady State.dsValid State.dsGb
  rw [hbit _ _ (by omega), hbit _ _ (Nat.le_refl _)]

/-- With LAST a word is valid in its bank and carries the generation written; every other bit stays. -/
theorem State.dsReady_dsWrite_last (v k : Nat) (hv128 : v < 128) :
    (s.dsWrite t pc bank w mask src true gb).dsReady t pc v k =
      if v = w ∧ k % 2 = bank then gb == dsGen k else s.dsReady t pc v k := by
  have hv := aDsGen_lt_aDsVal t pc
  have hlast : s.dsWrite t pc bank w mask src true gb = ((s.dsWrite t pc bank w mask src false gb).putMemBit
    (aDsGen t pc) (128 * bank + w) gb).putMemBit (aDsVal t pc) (128 * bank + w) true := rfl
  have hkeep := s.dsReady_dsWrite_notLast mask src gb ht hpc hb hw v k
  rw [hlast]
  generalize s.dsWrite t pc bank w mask src false gb = s1 at hkeep ⊢
  rw [← hkeep]
  unfold State.dsReady State.dsValid State.dsGb
  by_cases h : v = w ∧ k % 2 = bank
  · obtain ⟨rfl, rfl⟩ := h
    rw [if_pos ⟨rfl, rfl⟩, State.memBit_putMemBit_same, State.memBit_putMemBit_other _ _ _ _ _ _ (.inl (by omega)),
      State.memBit_putMemBit_same, Bool.true_and]
  · rw [if_neg h, State.memBit_putMemBit_other _ _ _ _ _ _ (by omega), State.memBit_putMemBit_other _ _ _ _ _ _ (.inl (by omega)),
      State.memBit_putMemBit_other _ _ _ _ _ _ (.inl (by omega)), State.memBit_putMemBit_other _ _ _ _ _ _ (by omega)]

end

/-- Two ecycles later the other generation is written. -/
theorem dsGen_add_two (k : Nat) : dsGen (k + 2) = !dsGen k := by
  have h : (k + 2) / 2 % 2 = 1 ↔ ¬ k / 2 % 2 = 1 := by omega
  simp only [dsGen, h, decide_not]

/-- Settles O19: the word reads back as written, and LAST writes the word's own generation and valid bit only. -/
theorem dataStoreWrites : Obligations.DataStoreWrites := by
  unfold Obligations.DataStoreWrites
  intro s t pc w k mask src ht hpc hw s1
  have hk : k % 2 < 2 := Nat.mod_lt _ (by decide)
  have hready := s.dsReady_dsWrite_last mask src (dsGen k) ht hpc hk hw
  refine ⟨s.word_dsWrite mask src (dsGen k) ht hpc hk hw true, ?_, ?_, fun v j hv hne => ?_,
    s.dsReady_dsWrite_notLast mask src (dsGen k) ht hpc hk hw w k⟩
  · rw [hready w k hw, if_pos ⟨rfl, rfl⟩, beq_self_eq_true]
  · rw [hready w (k + 2) hw, if_pos ⟨rfl, by omega⟩, dsGen_add_two]
    cases dsGen k <;> rfl
  · rw [hready v j hv, if_neg hne]

/-- Settles O20: the cases of R43, in the window and outside it. -/
theorem writeTargets : Obligations.WriteTargets := by
  unfold Obligations.WriteTargets
  intro d p c
  refine ⟨fun h => ?outside, fun h => ?window⟩
  case outside =>
    have hp : ¬ p < d.win := by omega
    simp [Sched.target, hp]
  case window => simp [Sched.target, h]

/- Counters. -/

theorem satAdd_lt (w n k : Nat) : satAdd w n k < 2 ^ w :=
  Nat.lt_of_le_of_lt (Nat.min_le_right _ _) (Nat.sub_lt (Nat.two_pow_pos w) Nat.one_pos)

/-- A counter advances and saturates. -/
theorem State.fldOf_count_same (s : State) (a lo w k : Nat) (h : lo + w ≤ 64) :
    (s.count a lo w k).fldOf a lo w = satAdd w (s.fldOf a lo w) k :=
  s.fldOf_setFld_same a lo w _ h (satAdd_lt w _ k)

theorem State.clu_count (s : State) (a lo w k j : Nat) : (s.count a lo w k).clu j = s.clu j := rfl

theorem State.fldOf_setClu (s : State) (j : Nat) (v : Clu) (a lo w : Nat) : (s.setClu j v).fldOf a lo w = s.fldOf a lo w := rfl

/- Windows of the memory model (R52, R54, R55). -/

theorem Window.allows_iff (w : Window) (off size : Nat) (write : Bool) :
    w.allows off size write = true ↔ w.en = true ∧ off * size + size ≤ w.size ∧ (write = true → w.wr = true) := by
  cases write <;> simp [Window.allows, and_assoc]

/-- The registers lie at different places of a block of 64 bytes (R61, R208). -/
theorem aCluErr_ne_aRgnRefwin (t pc m : Nat) : aCluErr t pc ≠ aRgnRefwin m := by
  simp only [aCluErr, cluReg, aRgnRefwin, homeReg, tileBase]
  omega

section
variable (s : State) (m t pc : Nat) {win off size : Nat} (k j : Nat) {write : Bool} (data : W64)

/-- An access that its window allows waits in the unit; the cluster's error counts stay. -/
theorem State.issue_allowed (h : (s.window t pc win).allows off size write = true) :
    ((s.issue m t pc win off size k j write data).clu (cluKey t pc)).mm = (s.clu (cluKey t pc)).mm ++
      [{ write, size, addr := (s.window t pc win).base + off * size, data, gen := parity k, since := s.tb, phase := .waiting }] ∧
    (s.issue m t pc win off size k j write data).reg (aCluErr t pc) = s.reg (aCluErr t pc) := by
  simp only [State.issue, h, if_true]
  split
  · rw [State.clu_count, State.reg_count_other _ _ _ _ _ _ (aCluErr_ne_aRgnRefwin t pc m), State.clu_setClu_same, State.setClu_reg]
    exact ⟨rfl, rfl⟩
  · rw [State.clu_setClu_same, State.setClu_reg]
    exact ⟨rfl, rfl⟩

/-- An access that its window does not allow stands refused in the unit, without data, and is counted. -/
theorem State.issue_refused (h : (s.window t pc win).allows off size write = false) :
    ((s.issue m t pc win off size k j write data).clu (cluKey t pc)).mm = (s.clu (cluKey t pc)).mm ++
      [{ write, size, addr := (s.window t pc win).base + off * size, data := 0, gen := parity k, since := s.tb, phase := .refused }] ∧
    (s.issue m t pc win off size k j write data).fldOf (aCluErr t pc) 16 16 = satAdd 16 (s.fldOf (aCluErr t pc) 16 16) 1 := by
  simp only [State.issue, h, Bool.false_and, Bool.false_eq_true, if_false]
  rw [State.clu_count, State.clu_setClu_same, State.fldOf_count_same _ _ _ _ _ (by decide), State.fldOf_setClu]
  exact ⟨rfl, rfl⟩

end

/-- Settles O23: an access is performed exactly where its window allows it. -/
theorem windowsBound : Obligations.WindowsBound := by
  unfold Obligations.WindowsBound
  intro s m t pc win off size k j write data _ w u
  refine ⟨fun hen hin hwr => ?inside, fun h => ?outside⟩
  case inside =>
    obtain ⟨hmm, herr⟩ := s.issue_allowed m t pc k j data ((w.allows_iff off size write).mpr ⟨hen, hin, hwr⟩)
    refine ⟨hmm, herr, fun b hb => ?_⟩
    obtain ⟨i, hi, rfl⟩ := List.mem_map.mp hb
    have hi := List.mem_range.mp hi
    omega
  case outside =>
    have hna : w.allows off size write = false := by
      rw [← w.allows_iff off size write, Bool.not_eq_true] at h
      exact h
    obtain ⟨hmm, hcnt⟩ := s.issue_refused m t pc k j data hna
    exact ⟨⟨_, hmm, rfl, rfl, rfl⟩, hcnt⟩

end Sys2Proof.Machine

/-! The speed bridges: the words and ticks on their links, and what a release point or a pad leaves of the state. -/

namespace Sys2Proof.Machine

/- Input words (R49). -/

theorem exec_bridgeInputWord (m : Nat) (s : State) (h : s.up) : exec (.bridgeInputWord m) s = .next (s.brgArrive m) :=
  act_up s (fun s => s.brgArrive m) h

/-- A word put into the BRG latch of a cluster. -/
def State.pushBrg (w : LWord) (s : State) (k : Nat) : State := s.setClu k { s.clu k with brg := (s.clu k).brg ++ [w] }

theorem State.clu_pushBrgs_other (w : LWord) (l : List Nat) (s : State) (k : Nat) (h : k ∉ l) :
    (s.forEach l (State.pushBrg w)).clu k = s.clu k := by
  induction l generalizing s with
  | nil => rfl
  | cons j l ih =>
    obtain ⟨hj, hl⟩ := not_or.mp (mt List.mem_cons.mpr h)
    rw [State.forEach_cons, ih _ hl, State.pushBrg, State.clu_setClu_other _ _ _ _ hj]

/-- Each of several latches takes the word once. -/
theorem State.clu_pushBrgs (w : LWord) (l : List Nat) (s : State) (k : Nat) (hl : l.Nodup) (h : k ∈ l) :
    (s.forEach l (State.pushBrg w)).clu k = { s.clu k with brg := (s.clu k).brg ++ [w] } := by
  induction l generalizing s with
  | nil => exact absurd h List.not_mem_nil
  | cons j l ih =>
    obtain ⟨hj, hl⟩ := List.nodup_cons.mp hl
    rw [State.forEach_cons]
    by_cases hk : k = j
    · subst hk
      rw [State.clu_pushBrgs_other w l _ k hj, State.pushBrg, State.clu_setClu_same]
    · rw [ih _ hl (List.mem_of_ne_of_mem hk h), State.pushBrg, State.clu_setClu_other _ _ _ _ hk]

/-- Key of the BRG latch of cluster C`c` of the home tile. -/
def State.brgLatch (s : State) (m c : Nat) : Nat := cluKey (homeTile m) (s.phys (homeTile m) c)

/-- Every one of the eight latches has a place. -/
def State.brgRoom (s : State) (m : Nat) : Prop := ∀ c, c < 8 → (s.clu (s.brgLatch m c)).brg.length < 2

theorem State.brgRoom_iff (s : State) (m : Nat) :
    (((List.range 8).map (s.brgLatch m)).all fun k => decide ((s.clu k).brg.length < 2)) = true ↔ s.brgRoom m := by
  simp [State.brgRoom]

theorem State.brgArrive_of_room (s : State) (m : Nat) (w : LWord) (rest : List LWord) (hup : (s.br m).up = w :: rest)
    (h : s.brgRoom m) : s.brgArrive m =
      (s.forEach ((List.range 8).map (s.brgLatch m)) (State.pushBrg w)).setBr m { s.br m with up := rest } := by
  simp only [State.brgArrive, hup]
  exact if_pos ((s.brgRoom_iff m).mpr h)

theorem State.brgArrive_stays (s : State) (m : Nat) (h : ¬ s.brgRoom m ∨ (s.br m).up = []) : s.brgArrive m = s := by
  cases hup : (s.br m).up with
  | nil => simp only [State.brgArrive, hup]
  | cons w rest =>
    have hroom : ¬ s.brgRoom m := h.resolve_right (by simp [hup])
    simp only [State.brgArrive, hup]
    exact if_neg (mt (s.brgRoom_iff m).mp hroom)

theorem State.clu_setBr (s : State) (m : Nat) (v : Br) (k : Nat) : (s.setBr m v).clu k = s.clu k := rfl

/-- An input word enters the eight latches and leaves the link. -/
theorem bridgeInputWord_enters (s : State) (m : Nat) (h : s.up) (w : LWord) (rest : List LWord) (hup : (s.br m).up = w :: rest)
    (hroom : s.brgRoom m) (hne : ∀ i j, i < j → j < 8 → s.brgLatch m i ≠ s.brgLatch m j) :
    ∃ u, exec (.bridgeInputWord m) s = .next u ∧ (u.br m).up = rest ∧
      (∀ c, c < 8 → u.clu (s.brgLatch m c) = { s.clu (s.brgLatch m c) with brg := (s.clu (s.brgLatch m c)).brg ++ [w] }) ∧
      (∀ k, (∀ c, c < 8 → k ≠ s.brgLatch m c) → u.clu k = s.clu k) ∧ u.regs = s.regs ∧ u.mem = s.mem := by
  have hnodup : ((List.range 8).map (s.brgLatch m)).Nodup :=
    List.pairwise_map.mpr (List.pairwise_lt_range.imp_of_mem fun _ hj hij => hne _ _ hij (List.mem_range.mp hj))
  refine ⟨_, (exec_bridgeInputWord m s h).trans (congrArg _ (s.brgArrive_of_room m w rest hup hroom)), ?_, fun c hc => ?_,
    fun k hk => ?_, ?_, ?_⟩
  · rw [State.br_setBr_same]
  · rw [State.clu_setBr, State.clu_pushBrgs w _ s _ hnodup (List.mem_map.mpr ⟨c, List.mem_range.mpr hc, rfl⟩)]
  · rw [State.clu_setBr, State.clu_pushBrgs_other w _ s k]
    intro hm
    obtain ⟨c, hc, rfl⟩ := List.mem_map.mp hm
    exact hk c (List.mem_range.mp hc) rfl
  · rw [State.setBr_regs]
    exact State.forEach_view State.regs (State.pushBrg w) (fun _ _ => rfl) _ s
  · rw [State.setBr_mem]
    exact State.forEach_view State.mem (State.pushBrg w) (fun _ _ => rfl) _ s

/- Ticks (R82, R257). -/

theorem exec_brTick (m : Nat) (s : State) (h : s.up) : exec (.brTick m) s = .next (s.brTick m) :=
  act_up s (fun s => s.brTick m) h

/-- The state with BR_TICK of bridge `m` high. -/
def State.brTicked (s : State) (m : Nat) : State :=
  { s with glue := { s.glue with ticked := s.glue.ticked.filter (· != m) ++ [m] } }

theorem State.brTick_eq (s : State) (m k : Nat) (rest : List Nat) (h : (s.br m).ticks = k :: rest) :
    s.brTick m = ((s.brTicked m).setBr m { s.br m with
      ticks := rest, brIn := (s.brTicked m).brInWord m,
      up := (s.br m).up ++ [{ gen := parity k, data := (s.brTicked m).brInWord m }] }).draw := by
  simp only [State.brTick, h]
  rfl

theorem State.br_draw (s : State) (m : Nat) : s.draw.br m = s.br m := rfl

/-- A tick is answered with BR_IN as it then is. -/
theorem brTick_answers (s : State) (m : Nat) (h : s.up) (k : Nat) (rest : List Nat) (ht : (s.br m).ticks = k :: rest) :
    ∃ u w, exec (.brTick m) s = .next u ∧ (u.br m).ticks = rest ∧ (u.br m).brIn = w ∧
      (u.br m).up = (s.br m).up ++ [{ gen := parity k, data := w }] ∧ (u.br m).down = (s.br m).down ∧ u.regs = s.regs ∧
      u.mem = s.mem := by
  refine ⟨_, (s.brTicked m).brInWord m, (exec_brTick m s h).trans (congrArg _ (s.brTick_eq m k rest ht)), ?_⟩
  rw [State.br_draw, State.br_setBr_same]
  generalize (s.brTicked m).brInWord m = w
  exact ⟨rfl, rfl, rfl, rfl, rfl, rfl⟩

/- Pads (R134, R257): what drives a pad changes the glue fabric's part of the state only. -/

/-- `t` differs from `s` in the glue fabric and its pads at most. -/
def State.GlueOnly (s t : State) : Prop := ∃ g, t = { s with glue := g }

theorem State.GlueOnly.trans {s t u : State} (h : s.GlueOnly t) (g : t.GlueOnly u) : s.GlueOnly u := by
  obtain ⟨_, rfl⟩ := h
  obtain ⟨x, rfl⟩ := g
  exact ⟨x, rfl⟩

theorem State.glueOnly_ite {s t u : State} (p : Prop) [Decidable p] (ht : s.GlueOnly t) (hu : s.GlueOnly u) :
    s.GlueOnly (if p then t else u) := by
  split <;> assumption

theorem State.glueOnly_setPad (s : State) (p : Nat) (v : Pin) : s.GlueOnly (s.setPad p v) := ⟨_, rfl⟩

theorem State.glueOnly_drivePad (s : State) (p : Nat) : s.GlueOnly (s.drivePad p) := by
  unfold State.drivePad
  refine State.glueOnly_ite _ (s.glueOnly_setPad p _) (State.glueOnly_ite _ (s.glueOnly_setPad p _) ?_)
  cases s.tapDrive p with
  | some _ => exact s.glueOnly_setPad p _
  | none => exact State.glueOnly_ite _ (s.glueOnly_setPad p _) (s.glueOnly_setPad p _)

theorem State.glueOnly_driveBridge (s : State) (m : Nat) : s.GlueOnly (s.driveBridge m) :=
  State.forEach_invariant (s.GlueOnly ·) _
    (fun t p h => h.trans (State.glueOnly_ite _ (t.glueOnly_drivePad p) ⟨t.glue, rfl⟩)) _ s ⟨s.glue, rfl⟩

@[simp] theorem State.driveBridge_br (s : State) (m n : Nat) : (s.driveBridge m).br n = s.br n := by
  obtain ⟨g, h⟩ := s.glueOnly_driveBridge m
  rw [h]
  rfl

@[simp] theorem State.driveBridge_regs (s : State) (m : Nat) : (s.driveBridge m).regs = s.regs := by
  obtain ⟨g, h⟩ := s.glueOnly_driveBridge m
  rw [h]

@[simp] theorem State.driveBridge_mem (s : State) (m : Nat) : (s.driveBridge m).mem = s.mem := by
  obtain ⟨g, h⟩ := s.glueOnly_driveBridge m
  rw [h]

@[simp] theorem State.driveBridge_tb (s : State) (m : Nat) : (s.driveBridge m).tb = s.tb := by
  obtain ⟨g, h⟩ := s.glueOnly_driveBridge m
  rw [h]

/- Output words (R85). -/

theorem exec_bridgeOutputWord (m : Nat) (s : State) (h : s.up) :
    exec (.bridgeOutputWord m) s = .next ((s.brOutWord m).driveBridge m) :=
  act_up s (fun s => (s.brOutWord m).driveBridge m) h

/-- A bridge after the output word at the head of its link: `held` where OUT_ALIGN keeps it for its release. -/
def Br.wordOut (b : Br) (held : Bool) (w : LWord) (rest : List LWord) (at_ : Nat) : Br :=
  if held then { b with down := rest, outCount := b.outCount + 1, regd := b.regd ++ [{ n := b.outCount, w := w.data, at_ }] }
  else { b with down := rest, outCount := b.outCount + 1, brOut := w.data }

theorem State.brOutWord_eq (s : State) (m : Nat) (w : LWord) (rest : List LWord) (h : (s.br m).down = w :: rest) :
    s.brOutWord m =
      s.setBr m ((s.br m).wordOut (s.bitOf (aRgnRt m) 10 && !(s.rgn m).stepping) w rest (roundUp s.tb s.glueTicks)) := by
  simp only [State.brOutWord, h]
  exact (apply_ite (s.setBr m) _ _ _).symm

/-- An output word leaves the link with the next number, and updates BR_OUT or waits. -/
theorem bridgeOutputWord_leaves (s : State) (m : Nat) (h : s.up) (w : LWord) (rest : List LWord)
    (hd : (s.br m).down = w :: rest) :
    ∃ u, exec (.bridgeOutputWord m) s = .next u ∧ (u.br m).down = rest ∧ (u.br m).outCount = (s.br m).outCount + 1 ∧
      (∀ n, n ≠ m → u.br n = s.br n) ∧ u.regs = s.regs ∧ u.mem = s.mem ∧
      (s.bitOf (aRgnRt m) 10 = false ∨ (s.rgn m).stepping = true → (u.br m).brOut = w.data ∧ (u.br m).regd = (s.br m).regd) ∧
      (s.bitOf (aRgnRt m) 10 = true → (s.rgn m).stepping = false → (u.br m).brOut = (s.br m).brOut ∧ (u.br m).regd =
        (s.br m).regd ++ [{ n := (s.br m).outCount, w := w.data, at_ := roundUp s.tb s.glueTicks }]) := by
  refine ⟨_, exec_bridgeOutputWord m s h, ?_⟩
  rw [State.driveBridge_br, State.driveBridge_regs, State.driveBridge_mem, s.brOutWord_eq m w rest hd, State.br_setBr_same]
  refine ⟨?down, ?count, fun n hn => ?others, rfl, rfl, fun hnow => ?now, fun halign hstep => ?held⟩
  case down => unfold Br.wordOut; split <;> rfl
  case count => unfold Br.wordOut; split <;> rfl
  case others => rw [State.driveBridge_br, State.br_setBr_other _ _ _ _ hn]
  case now =>
    have hheld : (s.bitOf (aRgnRt m) 10 && !(s.rgn m).stepping) = false := by
      rcases hnow with hnow | hnow <;> simp [hnow]
    rw [hheld]
    exact ⟨rfl, rfl⟩
  case held =>
    rw [halign, hstep]
    exact ⟨rfl, rfl⟩

/- Releases (R85). -/

theorem exec_outputRelease (m : Nat) (s : State) (h : s.up) : exec (.outputRelease m) s = .next ((s.outRelease m).driveBridge m) :=
  act_up s (fun s => (s.outRelease m).driveBridge m) h

theorem le_roundUp (n k : Nat) : n ≤ roundUp n k := by
  unfold roundUp
  split
  · exact Nat.le_refl n
  · have hmod := Nat.mod_lt (n + k - 1) (show 0 < k by omega)
    have hdiv := Nat.div_add_mod' (n + k - 1) k
    omega

theorem State.fullCycles_tb (s : State) (n : Nat) : (s.fullCycles n).tb = s.tb := by
  unfold State.fullCycles
  exact State.forEach_view State.tb _ (fun t _ => t.count_tb _ _ _ _) _ s

theorem State.le_tb_fullCycles (s : State) (n : Nat) {tb : Nat} (h : tb ≤ s.tb) : tb ≤ (s.fullCycles n).tb :=
  Nat.le_trans h (Nat.le_of_eq (s.fullCycles_tb n).symm)

/-- The time base stands at or past a tick up to which it was moved. -/
theorem State.le_tb_advanceTo (s : State) (tb : Nat) : tb ≤ (s.advanceTo tb).tb := by
  unfold State.advanceTo
  split
  · exact State.le_tb_fullCycles _ _ (Nat.le_refl tb)
  · omega

theorem State.le_tb_passTo (s : State) (tb : Nat) : tb ≤ (s.passTo tb).tb := by
  unfold State.passTo
  exact State.le_tb_advanceTo _ tb

theorem State.br_count (s : State) (a lo w k m : Nat) : (s.count a lo w k).br m = s.br m := rfl

/-- The release edge comes at or after the release point, and after the edge of registration. -/
theorem State.le_releaseAt (s : State) (m : Nat) (o : OutWord) :
    (s.rgn m).s0 + o.n * s.pace m + s.fldOf (aRgnRt m) 11 13 ≤ (s.releaseAt m o).1 ∧ o.at_ + s.glueTicks ≤ (s.releaseAt m o).1 :=
  ⟨Nat.le_trans (le_roundUp _ _) (Nat.le_max_left _ _), Nat.le_max_right _ _⟩

/-- A release updates BR_OUT at its edge; a late one changes a counter beside. -/
theorem State.outRelease_eq (s : State) (m : Nat) (o : OutWord) (rest : List OutWord) (h : (s.br m).regd = o :: rest) :
    ((s.outRelease m).br m) = { s.br m with regd := rest, brOut := o.w } ∧
      (s.outRelease m).tb = (s.passTo (s.releaseAt m o).1).tb := by
  simp only [State.outRelease, h]
  split
  · exact ⟨(State.br_count _ _ _ _ _ m).trans (State.br_setBr_same _ _ _), by rw [State.count_tb, State.setBr_tb]⟩
  · exact ⟨State.br_setBr_same _ _ _, State.setBr_tb _ _ _⟩

/-- The oldest word that waits is released at or after its release point. -/
theorem outputRelease_releases (s : State) (m : Nat) (h : s.up) (o : OutWord) (rest : List OutWord)
    (hr : (s.br m).regd = o :: rest) :
    ∃ u, exec (.outputRelease m) s = .next u ∧ (u.br m).brOut = o.w ∧ (u.br m).regd = rest ∧
      (s.rgn m).s0 + o.n * s.pace m + s.fldOf (aRgnRt m) 11 13 ≤ u.tb ∧ o.at_ + s.glueTicks ≤ u.tb := by
  obtain ⟨hbr, htb⟩ := s.outRelease_eq m o rest hr
  obtain ⟨hpoint, hedge⟩ := s.le_releaseAt m o
  have hpass := s.le_tb_passTo (s.releaseAt m o).1
  refine ⟨_, exec_outputRelease m s h, ?_⟩
  rw [State.driveBridge_br, State.driveBridge_tb, hbr, htb]
  exact ⟨rfl, rfl, Nat.le_trans hpoint hpass, Nat.le_trans hedge hpass⟩

/-- Settles O24: each part by the equation of its step; the pads that follow BR_OUT are the glue fabric's part of the state. -/
theorem bridgesAct : Obligations.BridgesAct := by
  unfold Obligations.BridgesAct
  intro s m h _
  exact ⟨fun w rest hup hroom hne => bridgeInputWord_enters s m h w rest hup hroom hne,
    fun hstay => (exec_bridgeInputWord m s h).trans (congrArg _ (s.brgArrive_stays m hstay)),
    fun k rest ht => brTick_answers s m h k rest ht,
    fun w rest hd => bridgeOutputWord_leaves s m h w rest hd,
    fun o rest hr => outputRelease_releases s m h o rest hr⟩

end Sys2Proof.Machine

/-! The memory-model unit of a tile: how an access goes to its bank or into the packet network, and how a result enters MMR. -/

namespace Sys2Proof.Machine

theorem exec_mmUnitPresent (t c : Nat) (s : State) (h : s.up) : exec (.mmUnitPresent t c) s = .next (s.unitPresent t c) :=
  act_up s (fun s => s.unitPresent t c) h

theorem exec_mmrReturn (t c : Nat) (s : State) (h : s.up) : exec (.mmrReturn t c) s = .next (s.unitReturn t c) :=
  act_up s (fun s => s.unitReturn t c) h

/- Requests sent (R214, R229). -/

/-- A packet of a tile enters its injection queue. -/
theorem State.inject_of_tile (s : State) (node port : Nat) (p : Packet) (h : node < 64) :
    s.inject node port p = { s with noc := { s.noc with
      flights := s.noc.flights ++ [{ node, net := pktNet p, input := 8 + port, vc := 0, wait := 0, pkt := p }] } } := by
  have hn : ¬ 64 ≤ node := by omega
  simp only [State.inject, hn, false_and, if_false]

/-- The request of an access that a single packet carries, with tag 0. -/
def State.shortReq (s : State) (node port : Nat) (origin : Origin) (write : Bool) (addr len : Nat) (data : List Byte)
    (dev : Nat) (dst : Nat × Nat) : Req :=
  { op := if write then .wr else .rd, urg := baseUrg node port, dstNode := dst.1, dstPort := dst.2, srcNode := node,
    srcPort := port, tag := 0, len, origin, dstDev := dev, srcDev := s.pos, addr, data, poison := false }

/-- A request with tag 0, the only one held, on its way from a tile. -/
def State.sentAlone (s : State) (node port : Nat) (q : Req) (use : TagUse) : State :=
  { s with noc := { s.noc with
      tags := [{ node, port, tag := 0, req := q, use }],
      flights := s.noc.flights ++ [{ node, net := 0, input := 8 + port, vc := 0, wait := 0, pkt := .req q }] } }

/-- While no tag is held, a tile's request of up to 16 bytes to an address of the map takes tag 0 and enters the network. -/
theorem State.sendTo_of_no_tags (s : State) (node port : Nat) (origin : Origin) (write : Bool) (addr len : Nat) (data : List Byte)
    (dev : Nat) (use : TagUse) (dst : Nat × Nat) (h : s.noc.tags = []) (hnode : node < 64) (hpool : 0 < tagPool node port)
    (hlen : len ≤ 16) (hmap : inMap addr = true) :
    s.sendTo node port origin write addr len data dev use dst =
      (s.sentAlone node port (s.shortReq node port origin write addr len data dev dst) use, true) := by
  have hfind : (List.range (tagPool node port)).find? (fun i => !([] : List Nat).contains i) = some 0 := by
    rw [show tagPool node port = tagPool node port - 1 + 1 by omega, List.range_succ_eq_map]
    rfl
  have hop : (if write = true then if len ≤ 16 then ReqOp.wr else .wrb else .rd) = if write then .wr else .rd := by
    rw [if_pos hlen]
  have hwrb : ¬ (if write = true then ReqOp.wr else .rd) = .wrb := by cases write <;> decide
  simp only [State.sendTo, h, List.filter_nil, List.map_nil, hfind, hop, hwrb, hmap, if_true, if_false, List.nil_append,
    State.inject_of_tile _ _ _ _ hnode]
  rfl

theorem ite_of_iff {α : Type} {P : Prop} {c : Bool} {x y : α} (h : c = true ↔ P) :
    (P → (if c then x else y) = x) ∧ (¬ P → (if c then x else y) = y) :=
  ⟨fun hp => if_pos (h.mpr hp), fun hp => if_neg (mt h.mp hp)⟩

/- Accesses presented (R173, R196). -/

section
variable (s : State) (t pc : Nat)

/-- A cluster without the refused writes that have come first in order. -/
def State.mmUnit : Clu := { s.clu (cluKey t pc) with mm := dropRefused (s.clu (cluKey t pc)).mm }

/-- The state in which the unit looks for the next access. -/
def State.mmLooks : State := s.setClu (cluKey t pc) (s.mmUnit t pc)

theorem State.mmPresent_of_none (h : (s.mmUnit t pc).candidate = none) : s.mmPresent t pc = s.mmLooks t pc := by
  unfold State.mmUnit at h
  simp only [State.mmPresent, h]
  rfl

/-- No other cluster's access goes before one of cluster `pc` issued at `since`, and none of the clusters waits at the bank. -/
def State.mmFirst (bk since : Nat) : Prop :=
  ((s.mmLooks t pc).rivals t bk).all (fun x => decide (since < x.1 ∨ (since = x.1 ∧ s.nameOf t pc ≤ x.2))) = true ∧
    ∀ q ∈ (s.bank bk).queue, ∀ n, q.src ≠ .mm n

/-- What the unit asks of a bank for an access. -/
def MmAcc.bankReq (a : MmAcc) (pc : Nat) : BankReq :=
  { src := .mm pc, write := a.write, addr := a.addr, len := a.size, data := bytesOfNat a.size a.data.toNat, poison := false,
    lost := 0, got := [], bad := false }

variable {before : List MmAcc} {a : MmAcc} {rest : List MmAcc} (h : (s.mmUnit t pc).candidate = some (before, a, rest))
include h

/-- An access in DRAM goes out where a tag is free. -/
theorem State.mmPresent_of_dram (hd : a.dram = true) :
    let r := (s.mmLooks t pc).sendReq t 3 (.region (regionOfTile t)) a.write a.addr a.size (bytesOfNat a.size a.data.toNat)
      (s.mmLooks t pc).pos (.mm t pc)
    s.mmPresent t pc = if r.2 then
      r.1.setClu (cluKey t pc) { s.mmUnit t pc with mm := before ++ { a with phase := .sent } :: rest } else s.mmLooks t pc := by
  unfold State.mmUnit at h
  simp only [State.mmPresent, h, hd, true_or, if_true]
  rfl

/-- An access in the tile's scratchpad goes to its bank when it is first there; until then it stays. -/
theorem State.mmPresent_of_scratchpad (hlo : 0x10_0000_0000 + 0x20_0000 * t ≤ a.addr)
    (hhi : a.addr < 0x10_0020_0000 + 0x20_0000 * t) :
    let bk := bankKey t (a.addr / 0x2_0000 % 16)
    (s.mmFirst t pc bk a.since → s.mmPresent t pc =
      ((s.mmLooks t pc).setClu (cluKey t pc) { s.mmUnit t pc with mm := before ++ { a with phase := .sent } :: rest }).setBank bk
        { s.bank bk with queue := (s.bank bk).queue ++ [a.bankReq pc] }) ∧
    (¬ s.mmFirst t pc bk a.since → s.mmPresent t pc = s.mmLooks t pc) := by
  intro bk
  have hout : ¬ (a.dram = true ∨ a.addr < 0x10_0000_0000 + 0x20_0000 * t ∨ 0x10_0020_0000 + 0x20_0000 * t ≤ a.addr) := by
    simp only [MmAcc.dram, decide_eq_true_eq]
    omega
  have hbank : bankOf a.addr = (t, a.addr / 0x2_0000 % 16) := by
    unfold bankOf
    congr 1
    omega
  unfold State.mmUnit at h
  simp only [State.mmPresent, h, hout, if_false, hbank]
  refine ite_of_iff ?_
  rw [Bool.and_eq_true, Bool.not_eq_true', List.any_eq_false]
  refine and_congr Iff.rfl (forall₂_congr fun q _ => ?_)
  cases q.src with
  | mm n => exact iff_of_false (fun hne => hne rfl) fun hne => hne n rfl
  | sa n => exact iff_of_true Bool.false_ne_true fun _ => BankSrc.noConfusion
  | noc r => exact iff_of_true Bool.false_ne_true fun _ => BankSrc.noConfusion
  | dbg r => exact iff_of_true Bool.false_ne_true fun _ => BankSrc.noConfusion

end

theorem State.unitPresent_clocked (s : State) (t c : Nat) (h : s.clocked (leafYard t 10) = true) :
    s.unitPresent t c = s.mmPresent t (s.phys t c) := if_pos h

section
variable (s : State) (h : s.up) (t c : Nat) (hclk : s.clocked (leafYard t 10) = true)
  {before : List MmAcc} {a : MmAcc} {rest : List MmAcc}
  (hcand : (s.mmUnit t (s.phys t c)).candidate = some (before, a, rest))
include h hclk hcand

/-- An access to DRAM goes out with the tag 0 while none is held. -/
theorem mmUnitPresent_sends (ht : t < 64) (hsize : a.size = 4 ∨ a.size = 8) (hd : a.dram = true) (hfree : s.noc.tags = []) :
    let pc := s.phys t c
    let k := cluKey t pc
    ∃ v x, exec (.mmUnitPresent t c) s = .next v ∧ v.noc.tags = [x] ∧ x.use = .mm t pc ∧ x.node = t ∧ x.port = 3 ∧ x.tag = 0 ∧
      x.req.addr = a.addr ∧ x.req.len = a.size ∧ x.req.origin = .region (regionOfTile t) ∧
      x.req.op = (if a.write then .wr else .rd) ∧ (a.write = true → x.req.data = bytesOfNat a.size a.data.toNat) ∧
      v.clu k = { s.mmUnit t pc with mm := before ++ { a with phase := .sent } :: rest } ∧
      v.noc.flights = s.noc.flights ++ [{ node := t, net := 0, input := 11, vc := 0, wait := 0, pkt := .req x.req }] ∧
      v.mem = s.mem ∧ v.regs = s.regs ∧ ∀ j, j ≠ k → v.clu j = s.clu j := by
  intro pc k
  have hpool : tagPool t 3 = 1056 := if_pos ht
  have hfree : (s.mmLooks t pc).noc.tags = [] := hfree
  have hmap : inMap a.addr = true := by
    simp only [MmAcc.dram, decide_eq_true_eq] at hd
    simp [inMap, hd]
  have hpres := s.mmPresent_of_dram t pc hcand hd
  rw [State.sendReq, State.sendTo_of_no_tags _ _ _ _ _ _ _ _ _ _ _ hfree ht (by omega) (by omega) hmap] at hpres
  dsimp only at hpres
  rw [if_pos rfl] at hpres
  refine ⟨_, _, (exec_mmUnitPresent t c s h).trans (congrArg _ ((s.unitPresent_clocked t c hclk).trans hpres)), rfl, rfl, rfl, rfl, rfl,
    rfl, rfl, rfl, rfl, fun _ => rfl, State.clu_setClu_same _ _ _, rfl, rfl, rfl, fun j hj => ?_⟩
  rw [State.clu_setClu_other _ _ _ _ hj]
  exact s.clu_setClu_other _ _ _ hj

/-- An access to the tile's scratchpad goes to its bank when it is first there. -/
theorem mmUnitPresent_presents (hlo : 0x10_0000_0000 + 0x20_0000 * t ≤ a.addr) (hhi : a.addr < 0x10_0020_0000 + 0x20_0000 * t) :
    let pc := s.phys t c
    let k := cluKey t pc
    let b := bankKey t (a.addr / 0x2_0000 % 16)
    (s.mmFirst t pc b a.since → ∃ v q, exec (.mmUnitPresent t c) s = .next v ∧ (v.bank b).queue = (s.bank b).queue ++ [q] ∧
      q.src = .mm pc ∧ q.write = a.write ∧ q.addr = a.addr ∧ q.len = a.size ∧ q.data = bytesOfNat a.size a.data.toNat ∧
      v.clu k = { s.mmUnit t pc with mm := before ++ { a with phase := .sent } :: rest } ∧ v.noc = s.noc ∧ v.mem = s.mem ∧
      v.regs = s.regs) ∧
    (¬ s.mmFirst t pc b a.since → exec (.mmUnitPresent t c) s = .next (s.mmLooks t pc)) := by
  intro pc k b
  have hexec := (exec_mmUnitPresent t c s h).trans (congrArg _ (s.unitPresent_clocked t c hclk))
  obtain ⟨hgo, hstay⟩ := s.mmPresent_of_scratchpad t pc hcand hlo hhi
  refine ⟨fun hf => ⟨_, a.bankReq pc, hexec.trans (congrArg _ (hgo hf)), ?_, rfl, rfl, rfl, rfl, rfl,
      State.clu_setClu_same _ _ _, rfl, rfl, rfl⟩, fun hf => hexec.trans (congrArg _ (hstay hf))⟩
  rw [State.bank_setBank_same]

end

/- Results in MMR (R53, R55). -/

section
variable (s : State) (t c : Nat)

/-- A result that does not enter leaves all as it is. -/
theorem State.unitReturn_of_stays (h : s.mmrReturn t (s.phys t c) = s) : s.unitReturn t c = s := by
  simp [State.unitReturn, h]

theorem State.mmrReturn_of_none (pc : Nat) (h : nextReturn [] (s.clu (cluKey t pc)).mm = none) : s.mmrReturn t pc = s := by
  simp only [State.mmrReturn, h]

/-- The next read in issue order enters MMR when its result is there and MMR has a place. -/
theorem State.mmrReturn_of_some (pc : Nat) {before : List MmAcc} {a : MmAcc} {rest : List MmAcc}
    (h : nextReturn [] (s.clu (cluKey t pc)).mm = some (before, a, rest)) :
    let u := s.clu (cluKey t pc)
    s.mmrReturn t pc = if (a.phase = .done ∨ a.phase = .refused) ∧ u.mmr.length < 4 then
      s.setClu (cluKey t pc) { u with mm := before ++ { a with phase := .inMmr } :: rest,
                                      mmr := u.mmr ++ [{ gen := a.gen, data := if a.phase = .refused then 0 else a.data }] }
    else s := by
  simp only [State.mmrReturn, h, Bool.and_eq_true, Bool.or_eq_true, beq_iff_eq, decide_eq_true_eq]

end

/- The data source of a tile (R447 to R453): what it sends changes no cluster and no memory. -/

/-- `t` has the clusters and the memory of `s`. -/
def State.SameData (s t : State) : Prop := t.clus = s.clus ∧ t.mem = s.mem

theorem State.SameData.refl (s : State) : s.SameData s := ⟨rfl, rfl⟩

theorem State.SameData.trans {s t u : State} (h : s.SameData t) (g : t.SameData u) : s.SameData u := by
  obtain ⟨hc, hm⟩ := h
  obtain ⟨gc, gm⟩ := g
  exact ⟨gc.trans hc, gm.trans hm⟩

theorem State.sameData_ite {s t u : State} (p : Prop) [Decidable p] (ht : s.SameData t) (hu : s.SameData u) :
    s.SameData (if p then t else u) := by
  split <;> assumption

theorem State.sameData_setTtSource (s : State) (t src : Nat) (v : TtSource) : s.SameData (s.setTtSource t src v) := ⟨rfl, rfl⟩

theorem State.sameData_inject (s : State) (node port : Nat) (p : Packet) : s.SameData (s.inject node port p) :=
  State.sameData_ite _ ⟨rfl, rfl⟩ ⟨rfl, rfl⟩

theorem State.sameData_nocErrAt (s : State) (addr status origin node : Nat) : s.SameData (s.nocErrAt addr status origin node) :=
  ⟨rfl, rfl⟩

theorem State.sameData_noc (s : State) (n : Noc) : s.SameData { s with noc := n } := ⟨rfl, rfl⟩

theorem State.sameData_sendTo (s : State) (node port : Nat) (origin : Origin) (write : Bool) (addr len : Nat) (data : List Byte)
    (dev : Nat) (use : TagUse) (dst : Nat × Nat) : s.SameData (s.sendTo node port origin write addr len data dev use dst).1 := by
  unfold State.sendTo
  extract_lets busy
  split
  · exact State.SameData.refl s
  · dsimp only
    split
    · exact (s.sameData_noc _).trans (State.sameData_inject _ _ _ _)
    · exact ((s.sameData_noc _).trans (State.sameData_nocErrAt _ _ _ _ _)).trans (State.sameData_noc _ _)

theorem State.sameData_tapSend (s : State) (t : Nat) : s.SameData (s.tapSend t) := by
  refine State.sameData_ite _ (State.SameData.refl s) ?_
  split
  · exact s.sameData_sendTo _ _ _ _ _ _ _ _ _ _
  · exact State.SameData.refl s

theorem State.sameData_ttPush (s : State) (t src : Nat) (bytes : List Byte) : s.SameData (s.ttPush t src bytes) :=
  State.SameData.trans ⟨rfl, rfl⟩ (State.sameData_tapSend _ t)

theorem State.sameData_count (s : State) (a lo w k : Nat) : s.SameData (s.count a lo w k) := ⟨rfl, rfl⟩

theorem State.sameData_ttTry (s : State) (t src : Nat) (bytes : List Byte) : s.SameData (s.ttTry t src bytes) :=
  State.sameData_ite _ ((s.sameData_setTtSource t src _).trans (State.sameData_count _ _ _ _ _)) (s.sameData_ttPush t src bytes)

theorem State.sameData_ttAtoms (s : State) (t : Nat) : s.SameData (s.ttAtoms t) :=
  State.sameData_ite _ (State.SameData.refl s) ((s.sameData_setTtSource t 0 _).trans (State.sameData_ttTry _ t 0 _))

theorem State.sameData_ttSync (s : State) (t src : Nat) : s.SameData (s.ttSync t src) :=
  ((State.sameData_ite _ (s.sameData_ttAtoms t) (State.SameData.refl s)).trans (State.sameData_ttTry _ t src _)).trans
    (State.sameData_setTtSource _ t src _)

theorem State.sameData_ttSend (s : State) (t src : Nat) (bytes : List Byte) : s.SameData (s.ttSend t src bytes) :=
  State.sameData_ite _ ((State.sameData_ite _ (s.sameData_ttSync t src) (State.SameData.refl s)).trans
    (State.sameData_ttTry _ t src bytes)) (State.SameData.refl s)

theorem State.sameData_ttData (s : State) (t : Nat) (write port : Bool) (who a : Nat) (data : List Byte) :
    s.SameData (s.ttData t write port who a data) :=
  State.sameData_ite _ ((s.sameData_ttSend t 1 _).trans (State.sameData_setTtSource _ t 1 _)) (State.SameData.refl s)

/-- What the data source shows of a result leaves the clusters and the memory as the result has left them. -/
theorem State.sameData_unitReturn (s : State) (t c : Nat) : (s.mmrReturn t (s.phys t c)).SameData (s.unitReturn t c) := by
  refine State.sameData_ite _ ?_ (State.SameData.refl _)
  split
  · exact State.sameData_ite _ (State.sameData_ttData _ _ _ _ _ _ _) (State.SameData.refl _)
  · exact State.SameData.refl _

/-- A result enters MMR behind those already there, or nothing changes. -/
theorem mmrReturn_enters (s : State) (h : s.up) (t c : Nat) (before : List MmAcc) (a : MmAcc) (rest : List MmAcc)
    (hn : nextReturn [] (s.clu (cluKey t (s.phys t c))).mm = some (before, a, rest)) :
    let k := cluKey t (s.phys t c)
    ((a.phase = .done ∨ a.phase = .refused) → (s.clu k).mmr.length < 4 →
      ∃ v, exec (.mmrReturn t c) s = .next v ∧
        (v.clu k).mmr = (s.clu k).mmr ++ [{ gen := a.gen, data := if a.phase = .refused then 0 else a.data }] ∧
        (v.clu k).mm = before ++ { a with phase := .inMmr } :: rest ∧ v.mem = s.mem ∧ ∀ j, j ≠ k → v.clu j = s.clu j) ∧
    ((a.phase ≠ .done ∧ a.phase ≠ .refused) ∨ 4 ≤ (s.clu k).mmr.length → exec (.mmrReturn t c) s = .next s) := by
  intro k
  have hret := s.mmrReturn_of_some t (s.phys t c) hn
  refine ⟨fun hp hl => ?_, fun hno => ?_⟩
  · have hret := hret.trans (if_pos ⟨hp, hl⟩)
    obtain ⟨hclus, hmem⟩ := s.sameData_unitReturn t c
    have hclu : ∀ j, (s.unitReturn t c).clu j = (s.mmrReturn t (s.phys t c)).clu j := fun j => by
      rw [State.clu, hclus, State.clu]
    refine ⟨_, exec_mmrReturn t c s h, ?_, ?_, ?_, fun j hj => ?_⟩
    · rw [hclu, hret, State.clu_setClu_same]
    · rw [hclu, hret, State.clu_setClu_same]
    · rw [hmem, hret, State.setClu_mem]
    · rw [hclu, hret, State.clu_setClu_other _ _ _ _ hj]
  · have hnot : ¬ ((a.phase = .done ∨ a.phase = .refused) ∧ (s.clu k).mmr.length < 4) := by
      rintro ⟨hp, hl⟩
      exact hno.elim (fun hq => hp.elim hq.1 hq.2) (Nat.not_le_of_lt hl)
    exact (exec_mmrReturn t c s h).trans (congrArg _ (s.unitReturn_of_stays t c (hret.trans (if_neg hnot))))

/-- Settles O22: the next access by where its address lies, a result by the next read in issue order. -/
theorem memoryModelUnits : Obligations.MemoryModelUnits := by
  unfold Obligations.MemoryModelUnits
  intro s t c h ht pc k u s1
  refine ⟨fun hclk => ⟨fun hnone => ?_, fun before a rest hcand hsize =>
      ⟨fun hd hfree => mmUnitPresent_sends s h t c hclk hcand ht hsize hd hfree,
        fun hlo hhi => mmUnitPresent_presents s h t c hclk hcand hlo hhi⟩⟩,
    fun hclk => ?_, fun before a rest hn => mmrReturn_enters s h t c before a rest hn, fun hn => ?_⟩
  · exact (exec_mmUnitPresent t c s h).trans
      (congrArg _ ((s.unitPresent_clocked t c hclk).trans (s.mmPresent_of_none t pc hnone)))
  · have hoff : ¬ s.clocked (leafYard t 10) = true := by simp [hclk]
    exact (exec_mmUnitPresent t c s h).trans (congrArg _ (if_neg hoff))
  · exact (exec_mmrReturn t c s h).trans (congrArg _ (s.unitReturn_of_stays t c (s.mmrReturn_of_none t pc hn)))

end Sys2Proof.Machine

/-! The state after reset: which row the register map has at an address, and what registers and memory read as before any
write. -/

namespace Sys2Proof.Machine

/- Rows of the tiles' registers (R208). -/

theorem regRow_tileReg {t off : Nat} (ht : t < 64) (ho : off < 0x10_0000) : regRow (tileReg t off) = tileRow t off := by
  have hrange : 0x15_0000_0000 ≤ tileReg t off ∧ tileReg t off < 0x15_0400_0000 := by unfold tileReg tileBase; omega
  have htile : (tileReg t off - 0x15_0000_0000) / 0x10_0000 = t := by unfold tileReg tileBase; omega
  have hoff : (tileReg t off - 0x15_0000_0000) % 0x10_0000 = off := by unfold tileReg tileBase; omega
  rw [regRow, if_pos hrange, htile, hoff]

theorem homeTile_lt {m : Nat} (hm : m < 16) : homeTile m < 64 := by
  unfold homeTile
  omega

theorem regionOfTile_homeTile (m : Nat) : regionOfTile (homeTile m) = m := by
  unfold regionOfTile homeTile
  omega

/-- The home tile of a region holds the region's registers (R22). -/
theorem regRow_homeReg {m o : Nat} (hm : m < 16) (ho : o < 0x40) (h8 : o % 8 = 0) :
    regRow (homeReg m (0xC000 + o)) = regionRow m o := by
  have hrow : regRow (homeReg m (0xC000 + o)) = tileRow (homeTile m) (0xC000 + o) :=
    regRow_tileReg (homeTile_lt hm) (by omega)
  rw [hrow, tileRow, regionOfTile_homeTile, if_neg (by omega), if_neg (by omega), if_neg (by omega),
    if_neg (by omega), if_neg (by omega), if_neg (by omega), if_pos (by omega), if_pos rfl, Nat.add_sub_cancel_left]

theorem regRow_aHoldLimit {t : Nat} (ht : t < 64) : regRow (aHoldLimit t) = some (rwReg .device .reach (bits 4 0) 24) :=
  regRow_tileReg ht (by decide)

theorem regRow_aSpCfg {t : Nat} (ht : t < 64) :
    regRow (aSpCfg t) = some (rwReg (.region (regionOfTile t)) .fencedOrHalted (bits 8 0) 0x80) :=
  regRow_tileReg ht (by decide)

theorem regRow_aTilePwr {t : Nat} (ht : t < 64) : regRow (aTilePwr t) = some (roReg .device .reach 4) :=
  regRow_tileReg ht (by decide)

theorem regRow_aRgnSched {m : Nat} (hm : m < 16) :
    regRow (aRgnSched m) = some (rwReg (.region m) .fencedOrHalted (bits 18 0 ||| bits 31 20)) :=
  regRow_homeReg hm (o := 0x00) (by decide) rfl

theorem regRow_aRgnSlipCfg {m : Nat} (hm : m < 16) :
    regRow (aRgnSlipCfg m) = some (rwReg (.region m) .reach (bits 23 0) 0xFF_FFFF) :=
  regRow_homeReg hm (o := 0x20) (by decide) rfl

/- Rows of the I/O die's registers (R206), in blocks of 64 KiB. -/

/-- An address of the range names its row by its block and its offset in the block. -/
theorem regRow_ioRow_parts {a b p : Nat} (ha : a = 0x15_1000_0000 + b * 0x1_0000 + p) (hb : b < 0x1000) (hp : p < 0x1_0000) :
    regRow a = ioRow a ∧ (a - 0x15_1000_0000) / 0x1_0000 = b ∧ (a - 0x15_1000_0000) % 0x1_0000 = p := by
  refine ⟨?_, by omega, by omega⟩
  rw [regRow, if_neg (by omega), if_pos (by omega)]

theorem regRow_glue {p : Nat} (hp : p < 0x1_0000) : regRow (0x15_1001_0000 + p) = glueRow p := by
  obtain ⟨hrow, hblock, hoff⟩ := regRow_ioRow_parts (b := 1) rfl (by decide) hp
  simp only [hrow, ioRow, hblock, hoff]

theorem regRow_cfg {p : Nat} (hp : p < 0x1_0000) : regRow (0x15_1003_0000 + p) = cfgRow p := by
  obtain ⟨hrow, hblock, hoff⟩ := regRow_ioRow_parts (b := 3) rfl (by decide) hp
  simp only [hrow, ioRow, hblock, hoff]

theorem regRow_debug {p : Nat} (hp : p < 0x1_0000) : regRow (0x15_100A_0000 + p) = debugRow p := by
  obtain ⟨hrow, hblock, hoff⟩ := regRow_ioRow_parts (b := 10) rfl (by decide) hp
  simp only [hrow, ioRow, hblock, hoff]

/-- The normal view of a GPIO bank (R262). -/
theorem regRow_aGpio {n off : Nat} (hn : n < 8) (ho : off < 0x200) : regRow (aGpio n off) = gpioRow off := by
  obtain ⟨hrow, hblock, hoff⟩ := regRow_ioRow_parts (a := aGpio n off) (b := 2) (p := 0x200 * n + off) (Nat.add_assoc _ _ _)
    (by decide) (by omega)
  have hview : 0x200 * n + off < 0x1000 := by omega
  have hreg : (0x200 * n + off) % 0x200 = off := by omega
  simp only [hrow, ioRow, hblock, hoff, hview, if_true, hreg]

theorem regRow_aPinCfg {p : Nat} (hp : p < 256) :
    regRow (aPinCfg p) =
      some ⟨8, 0x2000, bits 2 0 ||| bits 6 4 ||| bits 14 8 ||| bits 29 16 ||| bits 36 32, 0, 0, .device, .mgmt⟩ := by
  rw [aPinCfg, regRow_aGpio (by omega) (by omega), gpioRow, if_neg (by omega), if_neg (by omega), if_neg (by omega),
    if_pos (by omega)]

theorem regRow_aDcoCfg {k : Nat} (hk : k < 8) :
    regRow (aDcoCfg k) = some (rwReg .device .mgmt (bits 33 0) (BitVec.ofNat 64 (200 * 2 ^ 23))) := by
  rw [aDcoCfg, Nat.add_assoc 0x15_1001_0000 0x100, regRow_glue (by omega), glueRow, if_neg (by omega),
    if_neg (by omega), if_pos (by omega)]

theorem regRow_aCfgRgn {m : Nat} (hm : m < 16) : regRow (aCfgRgn m) = some (roReg .device .nobody) := by
  rw [aCfgRgn, Nat.add_assoc 0x15_1003_0000 0x100, regRow_cfg (by omega), cfgRow, if_pos (by omega)]

theorem regRow_aDbgHalt {m : Nat} (hm : m < 16) :
    regRow (aDbgHalt m) = some ⟨8, 0, bits 3 3 ||| bits 31 12, 0, bits 0 0, .device, .mgmtOrJtag 1⟩ := by
  rw [aDbgHalt, regRow_debug (by omega), debugRow, if_neg (by omega), if_pos (by omega)]

/- What the state after reset reads as. -/

/-- A register other than CASC_STAT, which shows straps (R361), holds the reset value of its row. -/
theorem State.reg_reset {a : Nat} {r : RegRow} (hrow : regRow a = some r) (ha : a ≠ aCascStat) :
    State.reset.reg a = r.reset := by
  have hdefault : State.reset.reg a = regReset a := if_neg (Ne.symm ha)
  rw [hdefault, regReset, hrow]

/-- The registers of tiles lie apart from CASC_STAT. -/
theorem tileReg_ne_aCascStat {t off : Nat} (ht : t < 64) (ho : off < 0x10_0000) : tileReg t off ≠ aCascStat := by
  unfold tileReg tileBase aCascStat
  omega

/-- The registers and memory after reset are in canonical form. -/
theorem State.reset_canonical : State.reset.Canonical := ⟨State.reset_mem_wf, by decide⟩

theorem State.byte_reset_dram {a : Nat} (ha : a < 0x10_0000_0000) : State.reset.byte a = 0 := by
  have hdefault : State.reset.byte a = memDefault {} a := rfl
  rw [hdefault, memDefault, if_neg (by omega), if_neg (by omega)]

/-- The ownership table after reset: another value from the first granule of the staging area on (R189, R190). -/
theorem State.byte_reset_ownership {g : Nat} (hg : g < 1024) :
    State.reset.byte (0x15_0800_0000 + g) = if 960 ≤ g then 0x11 else 0x1F := by
  have hdefault : State.reset.byte (0x15_0800_0000 + g) = memDefault {} (0x15_0800_0000 + g) := rfl
  have hstaging : stagingGranule {} = 960 := rfl
  rw [hdefault, memDefault, if_pos (by omega), hstaging, Nat.add_sub_cancel_left]

/-- The registers of a tile after reset (R64, R177, R390). -/
theorem reset_tile {t : Nat} (ht : t < 64) :
    State.reset.reg (aHoldLimit t) = 24 ∧ State.reset.reg (aSpCfg t) = 0x80 ∧ State.reset.reg (aTilePwr t) = 4 :=
  ⟨State.reg_reset (regRow_aHoldLimit ht) (tileReg_ne_aCascStat ht (by decide)),
    State.reg_reset (regRow_aSpCfg ht) (tileReg_ne_aCascStat ht (by decide)),
    State.reg_reset (regRow_aTilePwr ht) (tileReg_ne_aCascStat ht (by decide))⟩

/-- A region after reset: without a schedule, not released and so fenced, and not halted (R66, R86, R291). -/
theorem reset_region {m : Nat} (hm : m < 16) :
    State.reset.reg (aRgnSched m) = 0 ∧ State.reset.reg (aRgnSlipCfg m) = 0xFF_FFFF ∧ State.reset.rgnState m = 0 ∧
      State.reset.fenced m = true ∧ State.reset.halted m = false := by
  have hcfg : State.reset.reg (aCfgRgn m) = 0 := State.reg_reset (regRow_aCfgRgn hm) (by unfold aCfgRgn aCascStat; omega)
  have hdbg : State.reset.reg (aDbgHalt m) = 0 := State.reg_reset (regRow_aDbgHalt hm) (by unfold aDbgHalt aCascStat; omega)
  have hreleased : (State.reset.rgn m).released = false := rfl
  refine ⟨State.reg_reset (regRow_aRgnSched hm) (tileReg_ne_aCascStat (homeTile_lt hm) (by decide)),
    State.reg_reset (regRow_aRgnSlipCfg hm) (tileReg_ne_aCascStat (homeTile_lt hm) (by decide)), ?_, ?_, ?_⟩
  · rw [State.rgnState, State.fldOf, hcfg]
    rfl
  · rw [State.fenced, hreleased]
    exact Bool.or_true _
  · rw [State.halted, State.bitOf, hdbg]
    rfl

theorem State.reg_reset_aPinCfg {p : Nat} (hp : p < 256) : State.reset.reg (aPinCfg p) = 0x2000 :=
  State.reg_reset (regRow_aPinCfg hp) (by unfold aPinCfg aGpio aCascStat; omega)

/-- The tolerance of a DCO after reset, in ppm (R253). -/
theorem State.dcoTolerance_reset {k : Nat} (hk : k < 8) : State.reset.fldOf (aDcoCfg k) 23 11 = 200 := by
  have hreg := State.reg_reset (regRow_aDcoCfg hk) (by unfold aDcoCfg aCascStat; omega)
  rw [State.fldOf, hreg]
  rfl

/-- The clock and power block after reset: level 0, and the fields whose reset value is not 0 (R389). -/
theorem reset_power :
    State.reset.level = 0 ∧ State.reset.fldOf aReefCfg 0 8 = 95 ∧ State.reset.fldOf aReefCfg 16 10 = 700 ∧
      State.reset.fldOf aReefStat 3 3 = 4 ∧ State.reset.fldOf aPwrEst 32 16 = 750 :=
  ⟨by decide, by decide, by decide, by decide, by decide⟩

/-- Settles O57: a register reads as the reset value of its row in the register map, memory as its default, and the rest of
the state is written out in `State.reset`. -/
theorem resetState : Obligations.ResetState := by
  unfold Obligations.ResetState
  have hdevice : State.reset.devState = 0 := by decide
  have hketch : State.reset.reg aKetchCfg = 0xA06 := by decide
  obtain ⟨hlevel, htrigger, hcap, hstat, hcore⟩ := reset_power
  exact ⟨rfl, ⟨rfl, rfl⟩, State.reset_canonical, hdevice, hlevel, rfl, rfl, rfl, rfl, fun _ => reset_tile,
    fun _ => reset_region, fun _ => State.reg_reset_aPinCfg, fun _ => State.dcoTolerance_reset, hketch, htrigger, hcap, hstat,
    hcore, fun _ => State.byte_reset_dram, fun _ => State.byte_reset_ownership⟩

end Sys2Proof.Machine

/-! BAR4 and the flash read port of the glue fabric: which request of a list a port serves, and how a refused request ends. -/

namespace Sys2Proof.Machine

/- The first of a list. -/

theorem takeFirst_append_cons {α : Type} {p : α → Bool} {pre : List α} {q : α} (post : List α) (hpre : ∀ y ∈ pre, p y = false)
    (hq : p q = true) : takeFirst p (pre ++ q :: post) = some (q, pre ++ post) := by
  induction pre with
  | nil => simp [takeFirst, hq]
  | cons y pre ih =>
    obtain ⟨hy, hpre⟩ := List.forall_mem_cons.mp hpre
    simp [takeFirst, hy, ih hpre]

theorem takeFirst_eq_none {α : Type} {p : α → Bool} {l : List α} (h : ∀ y ∈ l, p y = false) : takeFirst p l = none := by
  induction l with
  | nil => rfl
  | cons y l ih =>
    obtain ⟨hy, hl⟩ := List.forall_mem_cons.mp h
    simp [takeFirst, hy, ih hl]

/- Commands of a part that runs. -/

section
variable (s : State) (h : s.up)
include h

theorem exec_bar4Request (write : Bool) (off size : Nat) (value : W64) (hs : size = 4 ∨ size = 8) (ha : off % size = 0)
    (hoff : off < 0x100_0000) :
    exec (.bar4Request write off size value) s =
      .next (s.busRequest { n := off / 0x20_0000, off, size, write, value }) :=
  (act_up s (fun s => s.bar4Request write off size value) h).trans (congrArg _ (if_neg (by omega)))

theorem exec_bar4Timeout (n : Nat) : exec (.bar4Timeout n) s = .next (s.bar4Timeout n) := act_up s (fun s => s.bar4Timeout n) h

theorem exec_flashReadPort (off : Nat) : exec (.flashReadPort off) s = .next (s.flashPort off) :=
  act_up s (fun s => s.flashPort off) h

end

/- Refusals (R261, R333). -/

/-- `t` is `s` after a host request at offset `key` has been refused: a read with an error completion that is counted, a write
in the host's error log. -/
def State.HostRefused (s t : State) (write : Bool) (key : Nat) : Prop :=
  t.mem = s.mem ∧
  (write = false → t.host.cpls = s.host.cpls ++ [{ bar := 4, key, status := 2, ep := false, data := [] }] ∧ t.host.aer = s.host.aer ∧
    t.fldOf aHpStat 24 16 = satAdd 16 (s.fldOf aHpStat 24 16) 1 ∧ ∀ a, a ≠ aHpStat → t.reg a = s.reg a) ∧
  (write = true → t.host.cpls = s.host.cpls ∧ t.host.aer = s.host.aer ++ [2] ∧ t.regs = s.regs)

theorem State.hostRefused_bar4Complete (s : State) (q : Bar4Req) (status : Nat) (hq : q.req = none) (hok : status ≠ stOk)
    (hdec : status ≠ stDecode) : s.HostRefused (s.bar4Complete q status []) q.write q.off := by
  cases hw : q.write with
  | false =>
    simp only [State.bar4Complete, hq, hw, hok, hdec, Bool.false_eq_true, if_false]
    exact ⟨rfl, fun _ => ⟨rfl, rfl, State.fldOf_count_same _ _ _ _ _ (by decide), fun a ha => State.reg_count_other _ _ _ _ _ _ ha⟩,
      fun hf => absurd hf (by decide)⟩
  | true =>
    simp only [State.bar4Complete, hq, hw, hok, hdec, if_true, if_false]
    exact ⟨rfl, fun hf => absurd hf (by decide), fun _ => ⟨rfl, rfl, rfl⟩⟩

theorem State.bar4Complete_glue_of_host (s : State) (q : Bar4Req) (status : Nat) (data : List Byte) (hq : q.req = none) :
    (s.bar4Complete q status data).glue = s.glue := by
  simp only [State.bar4Complete, hq, apply_ite State.glue, State.count_glue, ite_self]

theorem State.bar4Complete_of_req (s : State) (q : Bar4Req) (status : Nat) (data : List Byte) {r : Req} (hq : q.req = some r) :
    s.bar4Complete q status data = s.answer r status data false := by
  simp only [State.bar4Complete, hq]

/- The port of a region (R256, R261). -/

/-- The state in which the requests at the user bus ports are `l`. -/
def State.withBar4 (s : State) (l : List Bar4Req) : State := { s with glue := { s.glue with bar4 := l } }

theorem State.bar4Timeout_oldest (s : State) (n : Nat) {q : Bar4Req} {pre post : List Bar4Req} (hl : s.glue.bar4 = pre ++ q :: post)
    (hq : q.n = n) (hpre : ∀ y ∈ pre, y.n ≠ n) :
    s.bar4Timeout n = (s.withBar4 (pre ++ post)).bar4Complete q stDenied [] := by
  have htake : takeFirst (fun (q : Bar4Req) => q.n == n) s.glue.bar4 = some (q, pre ++ post) := by
    rw [hl]
    exact takeFirst_append_cons post (fun y hy => beq_false_of_ne (hpre y hy)) (beq_iff_eq.mpr hq)
  simp only [State.bar4Timeout, htake]
  rfl

theorem State.bar4Timeout_of_none (s : State) (n : Nat) (h : ∀ y ∈ s.glue.bar4, y.n ≠ n) : s.bar4Timeout n = s := by
  simp only [State.bar4Timeout, takeFirst_eq_none fun y hy => beq_false_of_ne (h y hy)]

/-- Settles O40: a request is refused by the same completion at a fenced port and when its time is up. -/
theorem userBus : Obligations.UserBus := by
  unfold Obligations.UserBus
  intro s write off size value h hs ha hoff n refused
  have hreq := exec_bar4Request s h write off size value hs ha hoff
  have htime := exec_bar4Timeout s h n
  have hflash := exec_flashReadPort s h off
  refine ⟨fun hf => ?fenced, fun hf => ?running, fun q pre post hl hq hpre => ⟨fun hhost => ?host, fun r hr => ?packet⟩,
    fun hnone => ?none, fun hruns => ?flash, fun hruns => ?noFlash⟩
  case fenced =>
    refine ⟨_, hreq.trans (congrArg _ (if_pos hf)), ?_, State.bar4Complete_glue_of_host _ _ _ _ rfl⟩
    exact s.hostRefused_bar4Complete { n, off, size, write, value } stFenced rfl (by decide) (by decide)
  case running => exact ⟨_, hreq.trans (congrArg _ (if_neg (by simp [n, hf]))), rfl, rfl, rfl, rfl⟩
  case host =>
    refine ⟨_, htime.trans (congrArg _ (s.bar4Timeout_oldest n hl hq hpre)), ?_, ?_⟩
    · exact (s.withBar4 (pre ++ post)).hostRefused_bar4Complete q stDenied hhost (by decide) (by decide)
    · exact congrArg Glue.bar4 (State.bar4Complete_glue_of_host _ _ _ _ hhost)
  case packet =>
    exact ⟨s.withBar4 (pre ++ post), (htime.trans (congrArg _ (s.bar4Timeout_oldest n hl hq hpre))).trans
      (congrArg _ (State.bar4Complete_of_req _ _ _ _ hr)), rfl, rfl, rfl, rfl⟩
  case none => exact htime.trans (congrArg _ (s.bar4Timeout_of_none n hnone))
  case flash => exact ⟨_, hflash.trans (congrArg _ (if_pos hruns)), rfl, rfl, rfl⟩
  case noFlash => exact hflash.trans (congrArg _ (if_neg (by simp [hruns])))

end Sys2Proof.Machine

/-! Fields of a register beside one that is written, and the pads: what driving them leaves of the state. -/

namespace Sys2Proof.Machine

/- Fields apart from the one written. -/

theorem bit_putFld_apart (v : W64) (lo w x i : Nat) (h : i < lo ∨ lo + w ≤ i) : bit (putFld v lo w x) i = bit v i := by
  by_cases h64 : i < 64
  · rcases h with h | h
    · simp [bit, putFld, h64, h]
    · have hlo : ¬ i < lo := by omega
      have hout : w ≤ i - lo := by omega
      simp [bit, putFld, h64, hlo, hout]
  · rw [bit, bit, BitVec.getLsbD_of_ge _ _ (Nat.le_of_not_lt h64), BitVec.getLsbD_of_ge _ _ (Nat.le_of_not_lt h64)]

theorem fld_putFld_apart (v : W64) (lo w x lo' w' : Nat) (h : lo' + w' ≤ lo ∨ lo + w ≤ lo') :
    fld (putFld v lo w x) lo' w' = fld v lo' w' := by
  have hbits : (putFld v lo w x).extractLsb' lo' w' = v.extractLsb' lo' w' := by
    apply BitVec.eq_of_getLsbD_eq
    intro i hi
    have hbit := bit_putFld_apart v lo w x (lo' + i) (by omega)
    rw [bit, bit] at hbit
    rw [BitVec.getLsbD_extractLsb', BitVec.getLsbD_extractLsb', hbit]
  rw [fld, hbits, fld]

theorem State.fldOf_setFld_apart (s : State) (a lo w x lo' w' : Nat) (h : lo' + w' ≤ lo ∨ lo + w ≤ lo') :
    (s.setFld a lo w x).fldOf a lo' w' = s.fldOf a lo' w' := by
  rw [State.fldOf, State.setFld, State.reg_setReg_same, fld_putFld_apart _ _ _ _ _ _ h, State.fldOf]

theorem State.bitOf_setFld_apart (s : State) (a lo w x i : Nat) (h : i < lo ∨ lo + w ≤ i) :
    (s.setFld a lo w x).bitOf a i = s.bitOf a i := by
  rw [State.bitOf, State.setFld, State.reg_setReg_same, bit_putFld_apart _ _ _ _ _ h, State.bitOf]

theorem State.bitOf_setBit_apart (s : State) (a i : Nat) (b : Bool) (j : Nat) (h : j ≠ i) :
    (s.setBit a i b).bitOf a j = s.bitOf a j := s.bitOf_setFld_apart a i 1 _ j (by omega)

theorem bit_putFld_same (v : W64) (i : Nat) (b : Bool) (h : i < 64) : bit (putFld v i 1 (b2n b)) i = b := by
  rw [bit_eq_fld, fld_putFld_same _ _ _ _ (by omega) (by cases b <;> decide)]
  cases b <;> rfl

/- Loops. -/

theorem State.forEach_append {α : Type} (s : State) (l l' : List α) (f : State → α → State) :
    s.forEach (l ++ l') f = (s.forEach l f).forEach l' f := List.foldl_append

/-- A loop over one more number. -/
theorem State.forEach_range_succ (s : State) (n : Nat) (f : State → Nat → State) :
    s.forEach (List.range (n + 1)) f = f (s.forEach (List.range n) f) n := by
  rw [List.range_succ, State.forEach_append, State.forEach_cons, State.forEach_nil]

/- Pads (R264 to R271). -/

@[simp] theorem State.pad_setPad_same (s : State) (p : Nat) (v : Pin) : (s.setPad p v).pad p = v := by
  simp [State.pad, State.setPad]

theorem State.pad_setPad_other (s : State) (p q : Nat) (v : Pin) (h : q ≠ p) : (s.setPad p v).pad q = s.pad q := by
  simp [State.pad, State.setPad, mapGet_set, h]

@[simp] theorem State.setPad_regs (s : State) (p : Nat) (v : Pin) : (s.setPad p v).regs = s.regs := rfl
@[simp] theorem State.setPad_reg (s : State) (p : Nat) (v : Pin) (a : Nat) : (s.setPad p v).reg a = s.reg a := rfl
@[simp] theorem State.setPad_mem (s : State) (p : Nat) (v : Pin) : (s.setPad p v).mem = s.mem := rfl

/-- Driving a pad writes that pad. -/
theorem State.drivePad_eq_setPad (s : State) (p : Nat) : ∃ v, s.drivePad p = s.setPad p v := by
  unfold State.drivePad
  split
  · exact ⟨_, rfl⟩
  · dsimp only
    split
    · exact ⟨_, rfl⟩
    · split
      · exact ⟨_, rfl⟩
      · split <;> exact ⟨_, rfl⟩

theorem State.pad_drivePad_other (s : State) (p q : Nat) (h : q ≠ p) : (s.drivePad p).pad q = s.pad q := by
  obtain ⟨v, hv⟩ := s.drivePad_eq_setPad p
  rw [hv, State.pad_setPad_other _ _ _ _ h]

/-- A pad of a bank without supply does not drive. -/
theorem State.oe_drivePad_of_no_supply (s : State) (p : Nat) (h : s.fldOf (aBankStat (p / 32)) 0 2 = 0) :
    ((s.drivePad p).pad p).oe = false := by
  simp only [State.drivePad, h, if_true]
  split <;> rw [State.pad_setPad_same]

/-- `t` differs from `s` in the pads and the draws of the free counter at most. -/
def State.PadsOnly (s t : State) : Prop := ∃ m f, t = { s with glue := { s.glue with pads := m }, free := f }

theorem State.PadsOnly.refl (s : State) : s.PadsOnly s := ⟨s.glue.pads, s.free, rfl⟩

theorem State.PadsOnly.trans {s t u : State} (h : s.PadsOnly t) (g : t.PadsOnly u) : s.PadsOnly u := by
  obtain ⟨_, _, rfl⟩ := h
  obtain ⟨m, f, rfl⟩ := g
  exact ⟨m, f, rfl⟩

theorem State.padsOnly_setPad (s : State) (p : Nat) (v : Pin) : s.PadsOnly (s.setPad p v) := ⟨_, s.free, rfl⟩

theorem State.padsOnly_draw (s : State) : s.PadsOnly s.draw := ⟨s.glue.pads, _, rfl⟩

theorem State.padsOnly_drivePad (s : State) (p : Nat) : s.PadsOnly (s.drivePad p) := by
  obtain ⟨v, hv⟩ := s.drivePad_eq_setPad p
  rw [hv]
  exact s.padsOnly_setPad p v

/-- A pad that is not held takes what its function gives it. -/
def State.followPad (s : State) (p : Nat) : State := if s.padHolds p then s else s.drivePad p

theorem State.drivePads_eq (s : State) : s.drivePads = (s.forEach (List.range 256) State.followPad).draw := rfl

theorem State.padsOnly_followPad (s : State) (p : Nat) : s.PadsOnly (s.followPad p) := by
  unfold State.followPad
  split
  · exact State.PadsOnly.refl s
  · exact s.padsOnly_drivePad p

theorem State.padsOnly_drivePads (s : State) : s.PadsOnly s.drivePads :=
  (State.forEach_invariant s.PadsOnly _ (fun t p h => h.trans (t.padsOnly_followPad p)) _ s (State.PadsOnly.refl s)).trans
    (State.padsOnly_draw _)

theorem State.PadsOnly.reg {s t : State} (h : s.PadsOnly t) (a : Nat) : t.reg a = s.reg a := by
  obtain ⟨_, _, rfl⟩ := h
  rfl

theorem State.PadsOnly.mem {s t : State} (h : s.PadsOnly t) : t.mem = s.mem := by
  obtain ⟨_, _, rfl⟩ := h
  rfl

theorem State.PadsOnly.fine {s t : State} (h : s.PadsOnly t) (k : Nat) : t.fine k = s.fine k := by
  obtain ⟨_, _, rfl⟩ := h
  rfl

@[simp] theorem State.drivePads_reg (s : State) (a : Nat) : s.drivePads.reg a = s.reg a := s.padsOnly_drivePads.reg a
@[simp] theorem State.drivePads_mem (s : State) : s.drivePads.mem = s.mem := s.padsOnly_drivePads.mem
@[simp] theorem State.drivePads_fine (s : State) (k : Nat) : s.drivePads.fine k = s.fine k := s.padsOnly_drivePads.fine k
@[simp] theorem State.drivePads_bitOf (s : State) (a i : Nat) : s.drivePads.bitOf a i = s.bitOf a i :=
  congrArg (bit · i) (s.drivePads_reg a)
@[simp] theorem State.drivePads_fldOf (s : State) (a lo w : Nat) : s.drivePads.fldOf a lo w = s.fldOf a lo w :=
  congrArg (fld · lo w) (s.drivePads_reg a)

end Sys2Proof.Machine

/-! Clock trees and DCOs: a switch that is forced, and what a measurement window leaves of a DCO's status. -/

namespace Sys2Proof.Machine

theorem exec_switchForced (n : Nat) (s : State) (h : s.up) : exec (.switchForced n) s = .next (s.switchForced n) :=
  act_up s (fun s => s.switchForced n) h

theorem exec_dcoWindow (n : Nat) (err : Int) (s : State) (h : s.up) (hn : n < 8) :
    exec (.dcoWindow n err) s = .next (s.dcoWindow n err) :=
  (act_up s (fun s => if n < 8 then s.dcoWindow n err else s) h).trans (congrArg _ (if_pos hn))

/- Forced switches (R247, R371). -/

/-- A switch that waits is completed and shown where its new source runs. -/
theorem switchForced_completes (s : State) (n : Nat) (h : s.up) (hw : s.glue.switching.contains n = true)
    (hr : s.srcRuns (s.fldOf (aGclkSel n) 0 4) = true) :
    ∃ t, exec (.switchForced n) s = .next t ∧ t.bitOf (aGclkSel n) 4 = true ∧ t.glue.switching.contains n = false ∧
      t.fldOf (aGclkSel n) 0 4 = s.fldOf (aGclkSel n) 0 4 ∧ (∀ a, a ≠ aGclkSel n → t.reg a = s.reg a) := by
  refine ⟨_, (exec_switchForced n s h).trans (congrArg _ (if_pos (by rw [hw, hr, Bool.and_self]))), ?_, ?_, ?_, fun a ha => ?_⟩
  · exact State.bitOf_setBit_same _ _ _ _ (by decide)
  · simp
  · exact State.fldOf_setFld_apart _ _ _ _ _ _ _ (by decide)
  · exact State.reg_setBit_other _ _ _ _ _ ha

theorem State.switchForced_of_none (s : State) (n : Nat) (h : s.glue.switching.contains n = false) : s.switchForced n = s :=
  if_neg (by rw [h, Bool.false_and]; exact Bool.false_ne_true)

/- Windows (R250 to R252). -/

/-- The errors that a window is judged by: its own, or under SPREAD_REF those of the latest windows. -/
def State.judgedErrs (s : State) (n : Nat) (err : Int) : List Int :=
  if s.bitOf (aDcoCfg n) 2 then (err :: s.errs n).take 16 else [err]

theorem State.length_judgedErrs_pos (s : State) (n : Nat) (err : Int) : 0 < (s.judgedErrs n err).length := by
  unfold State.judgedErrs
  split <;> simp

theorem State.judgedErrs_eq (s : State) (n : Nat) (err : Int) :
    (if s.bitOf (aDcoCfg n) 2 then (err :: s.errs n).take 16 else ((err :: s.errs n).take 16).take 1) = s.judgedErrs n err := by
  unfold State.judgedErrs
  split <;> simp

/-- The state once a window's error is shown and corrected for, before it is judged. -/
def State.windowShown (s : State) (n : Nat) (err : Int) : State :=
  ((s.setFld (aDcoStat n) 4 16 (BitVec.ofInt 16 (max (-32767) (min 32767 err))).toNat).setErrs n ((err :: s.errs n).take 16)).setFine n
    (s.fine n - (s.judgedErrs n err).foldl (· + ·) 0 / ((s.judgedErrs n err).length : Int))

/-- The error that the trim loop corrects by is the mean of those that the window is judged by. -/
theorem State.trimError_eq (s : State) (n : Nat) (err : Int) :
    trimError (s.bitOf (aDcoCfg n) 2) ((err :: s.errs n).take 16) =
      (s.judgedErrs n err).foldl (· + ·) 0 / ((s.judgedErrs n err).length : Int) := by
  unfold trimError
  dsimp only
  rw [s.judgedErrs_eq, Nat.max_eq_right (s.length_judgedErrs_pos n err)]

/-- The window of an enabled DCO is in tolerance (R250, R252). -/
def State.windowOk (s : State) (n : Nat) (err : Int) : Prop :=
  ((s.judgedErrs n err).foldl (· + ·) 0).natAbs ≤ s.fldOf (aDcoCfg n) 23 11 * (s.judgedErrs n err).length

theorem State.inTolerance_iff (s : State) (n : Nat) (err : Int) :
    inTolerance (s.bitOf (aDcoCfg n) 2) (s.fldOf (aDcoCfg n) 23 11) ((err :: s.errs n).take 16) = true ↔ s.windowOk n err := by
  unfold inTolerance
  dsimp only
  rw [s.judgedErrs_eq, decide_eq_true_iff, State.windowOk]

/-- The data of the event that a DCO has left its tolerance (R250, R404). -/
def State.unstableData (s : State) (n : Nat) : List Byte :=
  bytesOfNat 1 n ++ zeros 1 ++ bytesOfNat 2 (s.fldOf (aDcoStat n) 4 16) ++ zeros 4

section
variable (s : State) (n : Nat) (err : Int)

/-- A window of an enabled DCO by whether it is in tolerance and the DCO was stable. -/
theorem State.dcoWindow_eq (hn : n < 8) (hen : s.bitOf (aDcoCfg n) 0 = true) (href : s.pwr.href = true)
    [Decidable (s.windowOk n err)] :
    let s1 := s.windowShown n err
    let s2 := (s1.dcoRestart n).count (aDcoStat n) 20 16
    s.dcoWindow n err =
      if s.windowOk n err then
        if s.bitOf (aDcoStat n) 0 then s1
        else if s.fldOf (aDcoStat n) 2 2 = 3 then
          (s1.setReg (aDcoStat n) (putFld (putFld (s1.reg (aDcoStat n)) 0 1 1) 2 2 0)).drivePads
        else s1.setFld (aDcoStat n) 2 2 (s.fldOf (aDcoStat n) 2 2 + 1)
      else if s.bitOf (aDcoStat n) 0 then
        ((s2.setBit (aDcoStat n) 1 true).event 5 0xFF (s2.unstableData n)).drivePads
      else s1.dcoRestart n := by
  intro s1 s2
  have hgo : n < 8 ∧ bit (s.reg (aDcoCfg n)) 0 ∧ s.pwr.href := ⟨hn, hen, href⟩
  have hs1 : ((s.setReg (aDcoStat n) (putFld (s.reg (aDcoStat n)) 4 16 ((BitVec.ofInt 16 (max (-32767) (min 32767 err))).toNat))).setErrs
      n ((err :: s.errs n).take 16)).setFine n
      (s.fine n - trimError (bit (s.reg (aDcoCfg n)) 2) ((err :: s.errs n).take 16)) = s1 := by
    have htrim := s.trimError_eq n err
    rw [State.bitOf] at htrim
    rw [htrim]
    rfl
  have hok := s.inTolerance_iff n err
  rw [State.bitOf, State.fldOf] at hok
  unfold State.dcoWindow
  simp only [hgo, and_self, if_true, hs1, hok]
  rfl

theorem State.dcoWindow_of_off (h : s.bitOf (aDcoCfg n) 0 = false ∨ s.pwr.href = false) : s.dcoWindow n err = s := by
  have hstop : ¬ (n < 8 ∧ bit (s.reg (aDcoCfg n)) 0 = true ∧ s.pwr.href = true) := by
    rintro ⟨_, hen, href⟩
    rw [State.bitOf] at h
    simp [hen, href] at h
  exact if_neg hstop

/-- What every window of a running DCO leaves: its error shown, the fine code corrected, and no change beside the DCO's status
and the pads. -/
def State.Judged (t : State) : Prop :=
  t.fldOf (aDcoStat n) 4 16 = (BitVec.ofInt 16 (max (-32767) (min 32767 err))).toNat ∧
  t.fine n = max (-15000) (min 15000 (s.fine n - (s.judgedErrs n err).foldl (· + ·) 0 / ((s.judgedErrs n err).length : Int))) ∧
  (∀ a, a ≠ aDcoStat n → t.reg a = s.reg a) ∧ t.mem = s.mem

theorem State.judged_windowShown : s.Judged n err (s.windowShown n err) := by
  refine ⟨?_, ?_, fun a ha => ?_, rfl⟩
  · exact State.fldOf_setFld_same s _ _ _ _ (by decide) (BitVec.isLt _)
  · exact mapGet_set_same _ _ _ _
  · exact State.reg_setFld_other s _ _ _ _ _ ha

variable {s n err}

/-- A change of the DCO's status beside ERR_PPM. -/
theorem State.Judged.setReg {t : State} (h : s.Judged n err t) {v : W64} (hv : fld v 4 16 = t.fldOf (aDcoStat n) 4 16) :
    s.Judged n err (t.setReg (aDcoStat n) v) := by
  obtain ⟨herr, hfine, hregs, hmem⟩ := h
  refine ⟨?_, hfine, fun a ha => ?_, hmem⟩
  · rw [State.fldOf, State.reg_setReg_same, hv, herr]
  · rw [State.reg_setReg_other _ _ _ _ ha, hregs a ha]

theorem State.Judged.setFld {t : State} (h : s.Judged n err t) {lo w x : Nat} (hlo : 4 + 16 ≤ lo ∨ lo + w ≤ 4) :
    s.Judged n err (t.setFld (aDcoStat n) lo w x) := h.setReg (fld_putFld_apart _ _ _ _ _ _ hlo)

theorem State.Judged.dcoRestart {t : State} (h : s.Judged n err t) : s.Judged n err (t.dcoRestart n) :=
  h.setReg ((fld_putFld_apart _ _ _ _ _ _ (by decide)).trans (fld_putFld_apart _ _ _ _ _ _ (by decide)))

theorem State.Judged.drivePads {t : State} (h : s.Judged n err t) : s.Judged n err t.drivePads := by
  obtain ⟨m, f, hd⟩ := t.padsOnly_drivePads
  rw [hd]
  exact h

theorem State.Judged.event {t : State} (h : s.Judged n err t) (code region : Nat) (data : List Byte) :
    s.Judged n err (t.event code region data) := by
  obtain ⟨e, he⟩ := t.eventsOnly_event code region data
  rw [he]
  exact h

end

/- STABLE, RUN and the count of a DCO's status. -/

theorem State.EventsOnly.fldOf {s t : State} (h : s.EventsOnly t) (a lo w : Nat) : t.fldOf a lo w = s.fldOf a lo w := by
  obtain ⟨e, rfl⟩ := h
  rfl

theorem State.bitOf_windowShown (s : State) (n : Nat) (err : Int) (i : Nat) (h : i < 4 ∨ 4 + 16 ≤ i) :
    (s.windowShown n err).bitOf (aDcoStat n) i = s.bitOf (aDcoStat n) i := s.bitOf_setFld_apart (aDcoStat n) 4 16 _ i h

theorem State.fldOf_windowShown (s : State) (n : Nat) (err : Int) (lo w : Nat) (h : lo + w ≤ 4 ∨ 4 + 16 ≤ lo) :
    (s.windowShown n err).fldOf (aDcoStat n) lo w = s.fldOf (aDcoStat n) lo w := s.fldOf_setFld_apart (aDcoStat n) 4 16 _ lo w h

/-- STABLE set to `b` and RUN to 0: the rest of the status stays. -/
theorem State.status_set (s : State) (n : Nat) (b : Bool) :
    let t := s.setReg (aDcoStat n) (putFld (putFld (s.reg (aDcoStat n)) 0 1 (b2n b)) 2 2 0)
    t.bitOf (aDcoStat n) 0 = b ∧ t.fldOf (aDcoStat n) 2 2 = 0 ∧ t.bitOf (aDcoStat n) 1 = s.bitOf (aDcoStat n) 1 ∧
      t.fldOf (aDcoStat n) 20 16 = s.fldOf (aDcoStat n) 20 16 := by
  intro t
  have hr : t.reg (aDcoStat n) = putFld (putFld (s.reg (aDcoStat n)) 0 1 (b2n b)) 2 2 0 := State.reg_setReg_same _ _ _
  simp only [State.bitOf, State.fldOf, hr]
  refine ⟨?_, fld_putFld_same _ _ _ _ (by decide) (by decide), ?_, ?_⟩
  · rw [bit_putFld_apart _ _ _ _ _ (by decide), bit_putFld_same _ _ _ (by decide)]
  · rw [bit_putFld_apart _ _ _ _ _ (by decide), bit_putFld_apart _ _ _ _ _ (by decide)]
  · rw [fld_putFld_apart _ _ _ _ _ _ (by decide), fld_putFld_apart _ _ _ _ _ _ (by decide)]

/-- Judging starts anew: STABLE and RUN clear, the rest of the status stays. -/
theorem State.status_dcoRestart (s : State) (n : Nat) :
    (s.dcoRestart n).bitOf (aDcoStat n) 0 = false ∧ (s.dcoRestart n).fldOf (aDcoStat n) 2 2 = 0 ∧
      (s.dcoRestart n).bitOf (aDcoStat n) 1 = s.bitOf (aDcoStat n) 1 ∧
      (s.dcoRestart n).fldOf (aDcoStat n) 20 16 = s.fldOf (aDcoStat n) 20 16 := s.status_set n false

section
variable {s : State} {n : Nat} {err : Int} (hn : n < 8) (hen : s.bitOf (aDcoCfg n) 0 = true) (href : s.pwr.href = true)
include hn hen href

/-- A stable DCO in tolerance stays stable. -/
theorem State.dcoWindow_stays (hok : s.windowOk n err) (hst : s.bitOf (aDcoStat n) 0 = true) :
    let t := s.dcoWindow n err
    s.Judged n err t ∧ t.bitOf (aDcoStat n) 0 = true ∧ t.fldOf (aDcoStat n) 2 2 = s.fldOf (aDcoStat n) 2 2 ∧
      t.fldOf (aDcoStat n) 20 16 = s.fldOf (aDcoStat n) 20 16 := by
  classical
  intro t
  have ht : t = s.windowShown n err := (s.dcoWindow_eq n err hn hen href).trans ((if_pos hok).trans (if_pos hst))
  rw [ht]
  exact ⟨s.judged_windowShown n err, (s.bitOf_windowShown n err 0 (by decide)).trans hst,
    s.fldOf_windowShown n err 2 2 (by decide), s.fldOf_windowShown n err 20 16 (by decide)⟩

/-- In tolerance RUN advances, and the fourth window makes the DCO stable. -/
theorem State.dcoWindow_advances (hok : s.windowOk n err) (hst : s.bitOf (aDcoStat n) 0 = false) :
    let t := s.dcoWindow n err
    s.Judged n err t ∧ t.fldOf (aDcoStat n) 20 16 = s.fldOf (aDcoStat n) 20 16 ∧
      (s.fldOf (aDcoStat n) 2 2 = 3 → t.bitOf (aDcoStat n) 0 = true ∧ t.fldOf (aDcoStat n) 2 2 = 0) ∧
      (s.fldOf (aDcoStat n) 2 2 ≠ 3 → t.bitOf (aDcoStat n) 0 = false ∧
        t.fldOf (aDcoStat n) 2 2 = s.fldOf (aDcoStat n) 2 2 + 1) := by
  classical
  intro t
  have heq := (s.dcoWindow_eq n err hn hen href).trans ((if_pos hok).trans (if_neg (by simp [hst])))
  have hjudged := s.judged_windowShown n err
  have hcount := s.fldOf_windowShown n err 20 16 (by decide)
  by_cases h3 : s.fldOf (aDcoStat n) 2 2 = 3
  · have ht : t = _ := heq.trans (if_pos h3)
    obtain ⟨hbit, hrun, _, hcnt⟩ := (s.windowShown n err).status_set n true
    rw [ht, State.drivePads_fldOf, State.drivePads_bitOf, State.drivePads_fldOf]
    refine ⟨State.Judged.drivePads (hjudged.setReg ?_), hcnt.trans hcount, fun _ => ⟨hbit, hrun⟩, fun h => absurd h3 h⟩
    exact (fld_putFld_apart _ _ _ _ _ _ (by decide)).trans (fld_putFld_apart _ _ _ _ _ _ (by decide))
  · have ht : t = _ := heq.trans (if_neg h3)
    have hlt : s.fldOf (aDcoStat n) 2 2 < 2 ^ 2 := BitVec.isLt _
    rw [ht]
    refine ⟨hjudged.setFld (by decide), ?_, fun h => absurd h h3, fun _ => ⟨?_, ?_⟩⟩
    · rw [State.fldOf_setFld_apart _ _ _ _ _ _ _ (by decide), hcount]
    · rw [State.bitOf_setFld_apart _ _ _ _ _ _ (by decide), s.bitOf_windowShown n err 0 (by decide), hst]
    · exact State.fldOf_setFld_same _ _ _ _ _ (by decide) (by omega)

/-- Out of tolerance STABLE and RUN clear, and what was stable is counted and latched. -/
theorem State.dcoWindow_fails (hok : ¬ s.windowOk n err) :
    let t := s.dcoWindow n err
    s.Judged n err t ∧ t.bitOf (aDcoStat n) 0 = false ∧ t.fldOf (aDcoStat n) 2 2 = 0 ∧
      (s.bitOf (aDcoStat n) 0 = true → t.bitOf (aDcoStat n) 1 = true ∧
        t.fldOf (aDcoStat n) 20 16 = satAdd 16 (s.fldOf (aDcoStat n) 20 16) 1) ∧
      (s.bitOf (aDcoStat n) 0 = false → t.bitOf (aDcoStat n) 1 = s.bitOf (aDcoStat n) 1 ∧
        t.fldOf (aDcoStat n) 20 16 = s.fldOf (aDcoStat n) 20 16) := by
  classical
  intro t
  have heq := (s.dcoWindow_eq n err hn hen href).trans (if_neg hok)
  have hjudged := (s.judged_windowShown n err).dcoRestart
  have hlost := s.bitOf_windowShown n err 1 (by decide)
  have hcount := s.fldOf_windowShown n err 20 16 (by decide)
  obtain ⟨hbit, hrun, hbit1, hcnt⟩ := (s.windowShown n err).status_dcoRestart n
  by_cases hst : s.bitOf (aDcoStat n) 0 = true
  · have ht : t = _ := heq.trans (if_pos hst)
    have hev := State.eventsOnly_event ((((s.windowShown n err).dcoRestart n).count (aDcoStat n) 20 16).setBit (aDcoStat n) 1 true)
      5 0xFF ((((s.windowShown n err).dcoRestart n).count (aDcoStat n) 20 16).unstableData n)
    rw [ht, State.drivePads_bitOf, State.drivePads_bitOf, State.drivePads_fldOf, State.drivePads_fldOf, hev.bitOf, hev.bitOf,
      hev.fldOf, hev.fldOf]
    refine ⟨((hjudged.setFld (by decide)).setFld (by decide)).event _ _ _ |>.drivePads, ?_, ?_, fun _ => ⟨?_, ?_⟩,
      fun h => absurd hst (by simp [h])⟩
    · rw [State.bitOf_setBit_apart _ _ _ _ _ (by decide), State.count, State.bitOf_setFld_apart _ _ _ _ _ _ (by decide), hbit]
    · rw [State.setBit, State.fldOf_setFld_apart _ _ _ _ _ _ _ (by decide), State.count,
        State.fldOf_setFld_apart _ _ _ _ _ _ _ (by decide), hrun]
    · exact State.bitOf_setBit_same _ _ _ _ (by decide)
    · rw [State.setBit, State.fldOf_setFld_apart _ _ _ _ _ _ _ (by decide), State.fldOf_count_same _ _ _ _ _ (by decide), hcnt,
        hcount]
  · have ht : t = _ := heq.trans (if_neg hst)
    rw [ht]
    exact ⟨hjudged, hbit, hrun, fun h => absurd h hst, fun _ => ⟨hbit1.trans hlost, hcnt.trans hcount⟩⟩

end

/-- Settles O39: a forced switch, and a window by whether it is in tolerance and the DCO was stable. -/
theorem glueClocks : Obligations.GlueClocks := by
  unfold Obligations.GlueClocks
  intro s n err h hn st l ok judged
  have hexec := exec_dcoWindow n err s h hn
  have hjudged : ∀ {t : State}, t = s.dcoWindow n err → s.Judged n err t → judged t := fun ht hj =>
    ⟨ht ▸ hexec, hj⟩
  refine ⟨fun hw hr => switchForced_completes s n h hw hr,
    fun hw => (exec_switchForced n s h).trans (congrArg _ (s.switchForced_of_none n hw)), fun hen href =>
      ⟨fun hok hst => ?stays, fun hok hst => ?advances, fun hok => ?fails⟩,
    fun hoff => hexec.trans (congrArg _ (s.dcoWindow_of_off n err hoff))⟩
  case stays =>
    obtain ⟨hj, hrest⟩ := State.dcoWindow_stays hn hen href hok hst
    exact ⟨_, hjudged rfl hj, hrest⟩
  case advances =>
    obtain ⟨hj, hrest⟩ := State.dcoWindow_advances hn hen href hok hst
    exact ⟨_, hjudged rfl hj, hrest⟩
  case fails =>
    obtain ⟨hj, hrest⟩ := State.dcoWindow_fails hn hen href hok
    exact ⟨_, hjudged rfl hj, hrest⟩

end Sys2Proof.Machine

/-! Masked writes of the GPIO block: which bits one changes, and what it leaves of the registers. -/

namespace Sys2Proof.Machine

/- Addresses of a bank's registers (R262, R263). -/

theorem aPinCfg_ne_aGpio (p b : Nat) {off : Nat} (h : off < 0x100) : aPinCfg p ≠ aGpio b off := by
  unfold aPinCfg aGpio
  omega

theorem aSecIgn_ne_aGpio {bank b off : Nat} (hb : b < 8) (ho : off < 0x200) : aSecIgn bank ≠ aGpio b off := by
  unfold aSecIgn aGpio
  omega

theorem aSecIgn_ne_aPinCfg (bank p : Nat) : aSecIgn bank ≠ aPinCfg p := by
  unfold aSecIgn aPinCfg aGpio
  omega

/- One bit of a masked write (R265, R266). -/

/-- A refused bit writes an IGN register of its bank only. -/
theorem State.reg_ignCount_other (s : State) (secure : Bool) (o : Origin) (p a : Nat) (h : a ≠ aIgn (p / 32))
    (hs : a ≠ aSecIgn (p / 32)) : (s.ignCount secure o p).reg a = s.reg a := by
  have hne : a ≠ if secure || s.pinOwner p == 5 then aSecIgn (p / 32) else aIgn (p / 32) := by
    split <;> assumption
  rw [State.ignCount, State.reg_setReg_other _ _ _ _ hne, State.reg_count_other _ _ _ _ _ _ hne]

/-- The register that a masked write changes. -/
def maskedReg (oe : Bool) (bank : Nat) : Nat := if oe then aOe bank else aOut bank

/-- Bit `j` of a masked write from pin `lo` of a bank. -/
def State.maskedBit (o : Origin) (secure oe : Bool) (bank lo : Nat) (v : W32) (s : State) (j : Nat) : State :=
  if v.getLsbD (16 + j) then
    if ownerWrites (s.pinOwner (32 * bank + lo + j)) o secure then s.setBit (maskedReg oe bank) (lo + j) (v.getLsbD j)
    else s.ignCount secure o (32 * bank + lo + j)
  else s

section
variable (s : State) (o : Origin) (secure oe : Bool) (bank lo : Nat) (v : W32)

theorem State.maskedWrite_eq :
    s.maskedWrite o secure oe bank lo v = (s.forEach (List.range 16) (State.maskedBit o secure oe bank lo v)).drivePads := rfl

theorem State.maskedBit_mem (j : Nat) : (s.maskedBit o secure oe bank lo v j).mem = s.mem := by
  unfold State.maskedBit
  split
  · split <;> rfl
  · rfl

/-- `a` is none of the registers that a masked write may write. -/
def OutsideMasked (oe : Bool) (bank a : Nat) : Prop := a ≠ maskedReg oe bank ∧ a ≠ aIgn bank ∧ a ≠ aSecIgn bank

variable {bank lo}

theorem State.reg_maskedBit_other (hlo : lo + 16 ≤ 32) {j a : Nat} (hj : j < 16) (h : OutsideMasked oe bank a) :
    (s.maskedBit o secure oe bank lo v j).reg a = s.reg a := by
  obtain ⟨hreg, hign, hsec⟩ := h
  have hbank : (32 * bank + lo + j) / 32 = bank := by omega
  unfold State.maskedBit
  split
  · split
    · exact State.reg_setBit_other _ _ _ _ _ hreg
    · exact State.reg_ignCount_other _ _ _ _ _ (by rwa [hbank]) (by rwa [hbank])
  · rfl

/-- A bit is changed exactly where it is the one written, its mask bit is set and the writer owns the pin. -/
theorem State.bitOf_maskedBit (hb : bank < 8) (hlo : lo + 16 ≤ 32) {j : Nat} (hj : j < 16) (i : Nat) :
    (s.maskedBit o secure oe bank lo v j).bitOf (maskedReg oe bank) i =
      if i = lo + j ∧ (v.getLsbD (16 + j) && ownerWrites (s.pinOwner (32 * bank + lo + j)) o secure) = true then v.getLsbD j
      else s.bitOf (maskedReg oe bank) i := by
  have hbank : (32 * bank + lo + j) / 32 = bank := by omega
  unfold State.maskedBit
  by_cases hm : v.getLsbD (16 + j) = true
  · by_cases ho : ownerWrites (s.pinOwner (32 * bank + lo + j)) o secure = true
    · simp only [hm, ho, if_true, Bool.and_self, and_true]
      by_cases hi : i = lo + j
      · rw [if_pos hi, hi, State.bitOf_setBit_same _ _ _ _ (by omega)]
      · rw [if_neg hi, State.bitOf_setBit_apart _ _ _ _ _ hi]
    · have hreg : maskedReg oe bank ≠ aIgn bank ∧ maskedReg oe bank ≠ aSecIgn bank := by
        cases oe
        · exact ⟨by unfold maskedReg aOut aIgn aGpio; simp, (aSecIgn_ne_aGpio hb (by decide)).symm⟩
        · exact ⟨by unfold maskedReg aOe aIgn aGpio; simp, (aSecIgn_ne_aGpio hb (by decide)).symm⟩
      obtain ⟨hign, hsec⟩ := hreg
      simp only [hm, ho, Bool.and_false, and_false, if_true, if_false, Bool.false_eq_true]
      rw [State.bitOf, State.reg_ignCount_other _ _ _ _ _ (by rwa [hbank]) (by rwa [hbank]), State.bitOf]
  · simp only [hm, Bool.false_and, and_false, if_false, Bool.false_eq_true]

/- A masked write (R265, R266). -/

theorem outsideMasked_aPinCfg (p : Nat) : OutsideMasked oe bank (aPinCfg p) := by
  refine ⟨?_, aPinCfg_ne_aGpio p bank (by decide), (aSecIgn_ne_aPinCfg bank p).symm⟩
  cases oe
  · exact aPinCfg_ne_aGpio p bank (by decide)
  · exact aPinCfg_ne_aGpio p bank (by decide)

theorem State.reg_maskedBits_other (hlo : lo + 16 ≤ 32) {n : Nat} (hn : n ≤ 16) {a : Nat} (h : OutsideMasked oe bank a) :
    (s.forEach (List.range n) (State.maskedBit o secure oe bank lo v)).reg a = s.reg a := by
  induction n with
  | zero => rfl
  | succ n ih => rw [State.forEach_range_succ, State.reg_maskedBit_other _ _ _ _ _ hlo (by omega) h, ih (by omega)]

/-- The bits of the register after the first `n` bits of a masked write. -/
theorem State.bitOf_maskedBits (hb : bank < 8) (hlo : lo + 16 ≤ 32) {n : Nat} (hn : n ≤ 16) :
    let t := s.forEach (List.range n) (State.maskedBit o secure oe bank lo v)
    (∀ j, j < n → t.bitOf (maskedReg oe bank) (lo + j) =
      if v.getLsbD (16 + j) && ownerWrites (s.pinOwner (32 * bank + lo + j)) o secure then v.getLsbD j
      else s.bitOf (maskedReg oe bank) (lo + j)) ∧
    ∀ i, i < lo ∨ lo + n ≤ i → t.bitOf (maskedReg oe bank) i = s.bitOf (maskedReg oe bank) i := by
  induction n with
  | zero => exact ⟨fun j hj => absurd hj (Nat.not_lt_zero j), fun _ _ => rfl⟩
  | succ n ih =>
    intro t
    obtain ⟨hin, hout⟩ := ih (by omega)
    have hstep : t = _ := State.forEach_range_succ _ _ _
    have hown : ∀ p, (s.forEach (List.range n) (State.maskedBit o secure oe bank lo v)).pinOwner p = s.pinOwner p := fun p =>
      congrArg (fld · 4 3) (s.reg_maskedBits_other o secure oe v hlo (by omega) (outsideMasked_aPinCfg oe p))
    rw [hstep]
    refine ⟨fun j hj => ?_, fun i hi => ?_⟩
    · rw [State.bitOf_maskedBit _ _ _ _ _ hb hlo (by omega), hown]
      by_cases hjn : j = n
      · subst hjn
        rw [hout _ (by omega)]
        simp only [true_and]
      · rw [if_neg (by omega), hin j (by omega)]
    · rw [State.bitOf_maskedBit _ _ _ _ _ hb hlo (by omega), if_neg (by omega), hout i (by omega)]

/-- A masked write changes exactly the bits whose mask is set and whose pin the writer owns. -/
theorem State.maskedWrite_writes (hb : bank < 8) (hlo : lo + 16 ≤ 32) :
    let t := s.maskedWrite o secure oe bank lo v
    (∀ j, j < 16 → t.bitOf (maskedReg oe bank) (lo + j) =
      if v.getLsbD (16 + j) && ownerWrites (s.pinOwner (32 * bank + lo + j)) o secure then v.getLsbD j
      else s.bitOf (maskedReg oe bank) (lo + j)) ∧
    (∀ i, i < lo ∨ lo + 16 ≤ i → t.bitOf (maskedReg oe bank) i = s.bitOf (maskedReg oe bank) i) ∧
    (∀ a, OutsideMasked oe bank a → t.reg a = s.reg a) ∧ t.mem = s.mem := by
  obtain ⟨hin, hout⟩ := s.bitOf_maskedBits o secure oe v hb hlo (Nat.le_refl 16)
  rw [s.maskedWrite_eq]
  simp only [State.drivePads_bitOf, State.drivePads_reg, State.drivePads_mem]
  exact ⟨hin, hout, fun a ha => s.reg_maskedBits_other o secure oe v hlo (Nat.le_refl 16) ha,
    State.forEach_view State.mem _ (fun t j => t.maskedBit_mem o secure oe bank lo v j) _ s⟩

end

/- The four registers (R266). -/

theorem gpioWrite_eq (s : State) {o : Origin} {secure : Bool} {bank r : Nat} (v : W32) (hb : bank < 8) (hr : r < 4)
    (ho : o = .mgmt ∨ o = .jtag ∨ (o = .host ∧ secure = false)) :
    s.gpioWrite o secure bank r v = s.maskedWrite o secure (decide (2 ≤ r)) bank (16 * (r % 2)) v := by
  have hreach : o = .mgmt ∨ o = .jtag ∨ (o = .host ∧ (!secure) = true) := by simpa using ho
  rw [State.gpioWrite, if_neg (by omega), if_pos hreach, State.gpioMasked]
  have hr' : ∀ base, base % 0x200 = 0 → (base + 0x200 * bank + 4 * r) % 0x200 / 4 = r := fun base h => by omega
  cases secure
  · have hview : decide (0x15_1002_8000 ≤ 0x15_1002_0000 + 0x200 * bank + 4 * r) = false := decide_eq_false (by omega)
    have hbank : (0x15_1002_0000 + 0x200 * bank + 4 * r - 0x15_1002_0000) % 0x8000 / 0x200 = bank := by omega
    simp only [Bool.false_eq_true, if_false, hview, hbank, hr' 0x15_1002_0000 rfl]
  · have hview : decide (0x15_1002_8000 ≤ 0x15_1002_8000 + 0x200 * bank + 4 * r) = true := decide_eq_true (by omega)
    have hbank : (0x15_1002_8000 + 0x200 * bank + 4 * r - 0x15_1002_0000) % 0x8000 / 0x200 = bank := by omega
    simp only [if_true, hview, hbank, hr' 0x15_1002_8000 rfl]

theorem outsideMasked_aOe {bank : Nat} (hb : bank < 8) : OutsideMasked false bank (aOe bank) :=
  ⟨by unfold maskedReg aOe aOut aGpio; simp, by unfold aOe aIgn aGpio; omega, (aSecIgn_ne_aGpio hb (by decide)).symm⟩

theorem outsideMasked_aOut {bank : Nat} (hb : bank < 8) : OutsideMasked true bank (aOut bank) :=
  ⟨by unfold maskedReg aOe aOut aGpio; simp, by unfold aOut aIgn aGpio; omega, (aSecIgn_ne_aGpio hb (by decide)).symm⟩

/-- Settles O37: the four registers are one masked write, of OUT or OE, from pin 0 or 16 of the bank. -/
theorem maskedWritesByOwner : Obligations.MaskedWritesByOwner := by
  unfold Obligations.MaskedWritesByOwner
  intro s o secure bank v h hb ho
  have hexec : ∀ r, r < 4 → s.act (fun s => s.gpioWrite o secure bank r v) =
      .next (s.maskedWrite o secure (decide (2 ≤ r)) bank (16 * (r % 2)) v) := fun r hr =>
    (act_up s _ h).trans (congrArg _ (gpioWrite_eq s v hb hr ho))
  have hlow : ∀ oe, _ := fun oe => s.maskedWrite_writes o secure oe v hb (lo := 0) (by decide)
  have hhigh : ∀ oe, _ := fun oe => s.maskedWrite_writes o secure oe v hb (lo := 16) (by decide)
  refine ⟨⟨_, hexec 0 (by decide), ?_⟩, ⟨_, hexec 1 (by decide), ?_⟩, ⟨_, hexec 2 (by decide), ?_⟩, ⟨_, hexec 3 (by decide), ?_⟩⟩
  · obtain ⟨hin, hout, hregs, hmem⟩ := hlow false
    simp only [Nat.zero_add, Nat.add_zero] at hin
    exact ⟨hin, fun j hj _ => hout j (.inr hj), hregs _ (outsideMasked_aOe hb), hmem⟩
  · obtain ⟨hin, hout, hregs, hmem⟩ := hhigh false
    exact ⟨hin, fun j hj => hout j (.inl hj), hregs _ (outsideMasked_aOe hb), hmem⟩
  · obtain ⟨hin, hout, hregs, hmem⟩ := hlow true
    simp only [Nat.zero_add, Nat.add_zero] at hin
    exact ⟨hin, fun j hj _ => hout j (.inr hj), hregs _ (outsideMasked_aOut hb), hmem⟩
  · obtain ⟨hin, hout, hregs, hmem⟩ := hhigh true
    exact ⟨hin, fun j hj => hout j (.inl hj), hregs _ (outsideMasked_aOut hb), hmem⟩

end Sys2Proof.Machine

/-! The input path of a pin (R267): what one CLK_GLUE edge makes of it, and when a steady level reaches IN. -/

namespace Sys2Proof.Machine

/- One edge of the input path. -/

/-- The cycles for which the second flop of a pin has differed from IN, this one with them. -/
def State.edgeCnt (s : State) (p : Nat) : Nat := if (s.pad p).s2 != s.pinIn p then (s.pad p).cnt + 1 else 0

/-- What an edge puts into IN of a pin, or none where IN stays. -/
def State.edgeIn (s : State) (p : Nat) : Option Bool :=
  if s.bankOn p = false then some false
  else if s.fldOf (aPinCfg p) 16 8 = 0 then some (s.pad p).s1
  else if (s.pad p).s2 != s.pinIn p ∧ s.fldOf (aPinCfg p) 16 8 ≤ s.edgeCnt p then some (s.pad p).s2
  else none

/-- A pin's flops and filter count after an edge. -/
def State.edgePin (s : State) (p : Nat) : Pin :=
  { s.pad p with s1 := s.padLevel p, s2 := s.bankOn p && (s.pad p).s1, cnt := if (s.edgeIn p).isSome then 0 else s.edgeCnt p }

/-- IN of a pin takes a level, or stays. -/
def State.takeIn (s : State) (p : Nat) : Option Bool → State
  | some b => s.setBit (aIn (p / 32)) (p % 32) b
  | none => s

theorem State.inputEdge_eq (s : State) (p : Nat) : s.inputEdge p = (s.setPad p (s.edgePin p)).takeIn p (s.edgeIn p) := rfl

theorem State.takeIn_glue (s : State) (p : Nat) (b : Option Bool) : (s.takeIn p b).glue = s.glue := by
  cases b <;> rfl

theorem State.pad_takeIn (s : State) (p : Nat) (b : Option Bool) (q : Nat) : (s.takeIn p b).pad q = s.pad q := by
  rw [State.pad, State.takeIn_glue, State.pad]

theorem State.pinIn_takeIn_same (s : State) (p : Nat) (b : Option Bool) : (s.takeIn p b).pinIn p = b.getD (s.pinIn p) := by
  cases b with
  | none => rfl
  | some b => exact State.bitOf_setBit_same _ _ _ _ (by omega)

theorem State.reg_takeIn_other (s : State) (p : Nat) (b : Option Bool) (a : Nat) (h : a ≠ aIn (p / 32)) :
    (s.takeIn p b).reg a = s.reg a := by
  cases b with
  | none => rfl
  | some b => exact State.reg_setBit_other _ _ _ _ _ h

/-- IN registers of different banks lie apart. -/
theorem aIn_inj {b c : Nat} : aIn b = aIn c ↔ b = c := by
  unfold aIn aGpio
  omega

theorem State.pinIn_takeIn_other (s : State) (p : Nat) (b : Option Bool) (q : Nat) (h : q ≠ p) :
    (s.takeIn p b).pinIn q = s.pinIn q := by
  cases b with
  | none => rfl
  | some b =>
    by_cases hbank : q / 32 = p / 32
    · rw [State.pinIn, hbank]
      refine (State.bitOf_setBit_apart _ _ _ _ _ (by omega)).trans ?_
      rw [State.pinIn, hbank]
    · exact State.bitOf_setBit_other _ _ _ _ _ _ (mt aIn_inj.mp hbank)

theorem State.pad_inputEdge_same (s : State) (p : Nat) : (s.inputEdge p).pad p = s.edgePin p := by
  rw [State.inputEdge_eq, State.pad_takeIn, State.pad_setPad_same]

theorem State.pad_inputEdge_other (s : State) (p q : Nat) (h : q ≠ p) : (s.inputEdge p).pad q = s.pad q := by
  rw [State.inputEdge_eq, State.pad_takeIn, State.pad_setPad_other _ _ _ _ h]

theorem State.reg_inputEdge_other (s : State) (p a : Nat) (h : a ≠ aIn (p / 32)) : (s.inputEdge p).reg a = s.reg a := by
  rw [State.inputEdge_eq, State.reg_takeIn_other _ _ _ _ h, State.setPad_reg]

theorem State.pinIn_inputEdge_same (s : State) (p : Nat) : (s.inputEdge p).pinIn p = (s.edgeIn p).getD (s.pinIn p) := by
  rw [State.inputEdge_eq, State.pinIn_takeIn_same]
  rfl

theorem State.pinIn_inputEdge_other (s : State) (p q : Nat) (h : q ≠ p) : (s.inputEdge p).pinIn q = s.pinIn q := by
  rw [State.inputEdge_eq, State.pinIn_takeIn_other _ _ _ _ h]
  rfl

/- What decides the level at a pad, and the filter's length. -/

theorem aPinCfg_ne_aIn (p b : Nat) : aPinCfg p ≠ aIn b := by
  unfold aPinCfg aIn aGpio
  omega

theorem aBankStat_ne_aIn (b c : Nat) : aBankStat b ≠ aIn c := by
  unfold aBankStat aIn aGpio
  omega

/-- The bank of a pin is supplied, its pad's level is `level`, and its filter takes `n` cycles. -/
def State.Steady (s : State) (p : Nat) (level : Bool) (n : Nat) : Prop :=
  s.bankOn p = true ∧ s.padLevel p = level ∧ s.fldOf (aPinCfg p) 16 8 = n

/-- `t` has the supply of the pin's bank, its PIN_CFG, and the level and the drive of its pad as `s` has. -/
def State.SameLevel (s t : State) (p : Nat) : Prop :=
  t.reg (aPinCfg p) = s.reg (aPinCfg p) ∧ t.reg (aBankStat (p / 32)) = s.reg (aBankStat (p / 32)) ∧
    (t.pad p).level = (s.pad p).level ∧ (t.pad p).out = (s.pad p).out ∧ (t.pad p).oe = (s.pad p).oe

theorem State.Steady.of_sameLevel {s t : State} {p : Nat} {level : Bool} {n : Nat} (h : s.Steady p level n) (hst : s.SameLevel t p) :
    t.Steady p level n := by
  obtain ⟨hon, hlevel, hn⟩ := h
  obtain ⟨hcfg, hstat, hl, ho, he⟩ := hst
  have hbank : t.bankOn p = s.bankOn p := congrArg (fun v => fld v 0 2 != 0) hstat
  refine ⟨hbank.trans hon, ?_, (congrArg (fld · 16 8) hcfg).trans hn⟩
  rw [State.padLevel, hbank, hl, ho, he, ← hlevel, State.padLevel]

theorem State.sameLevel_inputEdge (s : State) (p q : Nat) : s.SameLevel (s.inputEdge q) p := by
  refine ⟨s.reg_inputEdge_other _ _ (aPinCfg_ne_aIn _ _), s.reg_inputEdge_other _ _ (aBankStat_ne_aIn _ _), ?_⟩
  by_cases h : p = q
  · rw [h, State.pad_inputEdge_same]
    exact ⟨rfl, rfl, rfl⟩
  · rw [State.pad_inputEdge_other _ _ _ h]
    exact ⟨rfl, rfl, rfl⟩

/- The path of a supplied pin over one edge. -/

section
variable {s : State} {p : Nat} {level : Bool} {n : Nat} (h : s.Steady p level n)
include h

theorem State.flops_inputEdge : ((s.inputEdge p).pad p).s1 = level ∧ ((s.inputEdge p).pad p).s2 = (s.pad p).s1 := by
  obtain ⟨hon, hlevel, _⟩ := h
  rw [State.pad_inputEdge_same]
  exact ⟨hlevel, by simp [State.edgePin, hon]⟩

/-- Without a filter IN takes the first flop. -/
theorem State.inputEdge_unfiltered (hn : n = 0) : (s.inputEdge p).pinIn p = (s.pad p).s1 ∧ ((s.inputEdge p).pad p).cnt = 0 := by
  obtain ⟨hon, _, hf⟩ := h
  have hin : s.edgeIn p = some (s.pad p).s1 := by simp [State.edgeIn, hon, hf, hn]
  rw [State.pinIn_inputEdge_same, State.pad_inputEdge_same, State.edgePin, hin]
  exact ⟨rfl, rfl⟩

/-- While the second flop agrees with IN, the filter rests. -/
theorem State.inputEdge_agreeing (hn : 0 < n) (hs : (s.pad p).s2 = s.pinIn p) :
    (s.inputEdge p).pinIn p = s.pinIn p ∧ ((s.inputEdge p).pad p).cnt = 0 := by
  obtain ⟨hon, _, hf⟩ := h
  have hin : s.edgeIn p = none := by simp [State.edgeIn, hon, hf, hs, Nat.pos_iff_ne_zero.mp hn]
  have hcnt : s.edgeCnt p = 0 := by simp [State.edgeCnt, hs]
  rw [State.pinIn_inputEdge_same, State.pad_inputEdge_same, State.edgePin, hin, hcnt]
  exact ⟨rfl, rfl⟩

/-- While the second flop differs from IN, the filter counts, and IN follows at its end. -/
theorem State.inputEdge_differing (hn : 0 < n) (hs : (s.pad p).s2 ≠ s.pinIn p) :
    (n ≤ (s.pad p).cnt + 1 → (s.inputEdge p).pinIn p = (s.pad p).s2 ∧ ((s.inputEdge p).pad p).cnt = 0) ∧
    ((s.pad p).cnt + 1 < n → (s.inputEdge p).pinIn p = s.pinIn p ∧ ((s.inputEdge p).pad p).cnt = (s.pad p).cnt + 1) := by
  obtain ⟨hon, _, hf⟩ := h
  have hcnt : s.edgeCnt p = (s.pad p).cnt + 1 := by simp [State.edgeCnt, hs]
  rw [State.pinIn_inputEdge_same, State.pad_inputEdge_same, State.edgePin, hcnt]
  refine ⟨fun hend => ?_, fun hgo => ?_⟩
  · have hin : s.edgeIn p = some (s.pad p).s2 := by simp [State.edgeIn, hon, hf, hs, hcnt, hend, Nat.pos_iff_ne_zero.mp hn]
    rw [hin]
    exact ⟨rfl, rfl⟩
  · have hin : s.edgeIn p = none := by simp [State.edgeIn, hon, hf, hcnt, hgo, Nat.pos_iff_ne_zero.mp hn]
    rw [hin]
    exact ⟨rfl, rfl⟩

end

/- A steady level reaches IN. -/

/-- The steady level of a pad stands in IN after at most `k` edges more: it has passed the first flop, the second flop, and
as much of the filter as that leaves time for. -/
def State.Settles (s : State) (p : Nat) (level : Bool) (n k : Nat) : Prop :=
  s.Steady p level n ∧ (k ≤ n + 1 → (s.pad p).s1 = level) ∧
    (k ≤ n → (s.pad p).s2 = level ∧ (s.pinIn p = level ∨ (0 < k ∧ n ≤ (s.pad p).cnt + k)))

section
variable {s : State} {p : Nat} {level : Bool} {n : Nat}

/-- From any state of its path a pin settles within the two flops and the filter's time. -/
theorem State.Steady.settles (h : s.Steady p level n) : s.Settles p level n (2 + n) :=
  ⟨h, fun hk => absurd hk (by omega), fun hk => absurd hk (by omega)⟩

theorem State.Settles.pinIn (h : s.Settles p level n 0) : s.pinIn p = level := by
  obtain ⟨_, _, hin⟩ := h
  obtain ⟨_, hin | ⟨hk, _⟩⟩ := hin (Nat.zero_le n)
  · exact hin
  · exact absurd hk (Nat.lt_irrefl 0)

theorem State.Settles.inputEdge {k : Nat} (h : s.Settles p level n (k + 1)) : (s.inputEdge p).Settles p level n k := by
  obtain ⟨hsteady, hs1, hs2⟩ := h
  obtain ⟨hf1, hf2⟩ := State.flops_inputEdge hsteady
  refine ⟨hsteady.of_sameLevel (s.sameLevel_inputEdge p p), fun _ => hf1, fun hk => ⟨hf2.trans (hs1 (by omega)), ?_⟩⟩
  by_cases hn : n = 0
  · exact .inl ((State.inputEdge_unfiltered hsteady hn).1.trans (hs1 (by omega)))
  have hpos : 0 < n := by omega
  by_cases hkn : k = n
  · exact .inr (by omega)
  obtain ⟨hlevel, hin⟩ := hs2 (by omega)
  by_cases hsame : s.pinIn p = level
  · exact .inl ((State.inputEdge_agreeing hsteady hpos (hlevel.trans hsame.symm)).1.trans hsame)
  · obtain ⟨hend, hgo⟩ := State.inputEdge_differing hsteady hpos fun he => hsame (he.symm.trans hlevel)
    obtain ⟨_, hcnt⟩ := hin.resolve_left hsame
    by_cases hfull : n ≤ (s.pad p).cnt + 1
    · exact .inl ((hend hfull).1.trans hlevel)
    · obtain ⟨_, hnext⟩ := hgo (by omega)
      exact .inr (by omega)

theorem State.Settles.inputEdges {k : Nat} (h : s.Settles p level n k) (m : Nat) (hm : m ≤ k) :
    (s.forEach (List.range m) fun u _ => u.inputEdge p).Settles p level n (k - m) := by
  induction m with
  | zero => exact h
  | succ m ih =>
    rw [State.forEach_range_succ]
    refine State.Settles.inputEdge ?_
    rw [show k - (m + 1) + 1 = k - m by omega]
    exact ih (by omega)

/- IN does not move before its time. -/

/-- From rest, `k` edges have not brought a level to IN: they have moved a flop each, and the filter for the rest. -/
def State.Unreached (s : State) (p : Nat) (level old : Bool) (n k : Nat) : Prop :=
  s.Steady p level n ∧ s.pinIn p = old ∧ (k = 0 → (s.pad p).s1 = old) ∧ (k ≤ 1 → (s.pad p).s2 = old) ∧ (s.pad p).cnt ≤ k - 2

theorem State.Unreached.inputEdge {old : Bool} {k : Nat} (h : s.Unreached p level old n k) (hk : k + 1 < 2 + n) :
    (s.inputEdge p).Unreached p level old n (k + 1) := by
  obtain ⟨hsteady, hin, hs1, hs2, hcnt⟩ := h
  obtain ⟨_, hf2⟩ := State.flops_inputEdge hsteady
  have hpath : (s.inputEdge p).pinIn p = old ∧ ((s.inputEdge p).pad p).cnt ≤ k + 1 - 2 := by
    by_cases hn : n = 0
    · obtain ⟨hi, hc⟩ := State.inputEdge_unfiltered hsteady hn
      exact ⟨hi.trans (hs1 (by omega)), by omega⟩
    · by_cases hsame : (s.pad p).s2 = s.pinIn p
      · obtain ⟨hi, hc⟩ := State.inputEdge_agreeing hsteady (by omega) hsame
        exact ⟨hi.trans hin, by omega⟩
      · have hlate : ¬ k ≤ 1 := fun hk1 => hsame ((hs2 hk1).trans hin.symm)
        obtain ⟨hi, hc⟩ := (State.inputEdge_differing hsteady (by omega) hsame).2 (by omega)
        exact ⟨hi.trans hin, by omega⟩
  obtain ⟨hi, hc⟩ := hpath
  exact ⟨hsteady.of_sameLevel (s.sameLevel_inputEdge p p), hi, fun h0 => absurd h0 (by omega),
    fun h1 => hf2.trans (hs1 (by omega)), hc⟩

theorem State.Unreached.inputEdges {old : Bool} (h : s.Unreached p level old n 0) (k : Nat) (hk : k < 2 + n) :
    (s.forEach (List.range k) fun u _ => u.inputEdge p).Unreached p level old n k := by
  induction k with
  | zero => exact h
  | succ k ih =>
    rw [State.forEach_range_succ]
    exact (ih (by omega)).inputEdge hk

end

/-- From rest a steady level reaches IN in two edges and the filter's, and in none fewer. -/
theorem inputPath_takes (s : State) (p : Nat) (hon : s.bankOn p = true) (h1 : (s.pad p).s1 = s.pinIn p)
    (h2 : (s.pad p).s2 = s.pinIn p) (hc : (s.pad p).cnt = 0) :
    (s.forEach (List.range (2 + s.fldOf (aPinCfg p) 16 8)) fun u _ => u.inputEdge p).pinIn p = s.padLevel p ∧
      ∀ k, k < 2 + s.fldOf (aPinCfg p) 16 8 → (s.forEach (List.range k) fun u _ => u.inputEdge p).pinIn p = s.pinIn p := by
  have hsteady : s.Steady p (s.padLevel p) (s.fldOf (aPinCfg p) 16 8) := ⟨hon, rfl, rfl⟩
  refine ⟨?_, fun k hk => ?_⟩
  · have hend := hsteady.settles.inputEdges _ (Nat.le_refl _)
    rw [Nat.sub_self] at hend
    exact hend.pinIn
  · have hrest : s.Unreached p (s.padLevel p) (s.pinIn p) (s.fldOf (aPinCfg p) 16 8) 0 :=
      ⟨hsteady, rfl, fun _ => h1, fun _ => h2, by omega⟩
    obtain ⟨_, hin, _⟩ := hrest.inputEdges k hk
    exact hin

end Sys2Proof.Machine

/-! CLK_GLUE edges while the glue fabric and the lanes are at rest: an edge is one of the input paths, the time base moves beside
them, and a pad's steady level reaches IN (R267). -/

namespace Sys2Proof.Machine

/- Loops and maps. -/

/-- What the changes of a list's own elements keep, the loop over it keeps. -/
theorem State.forEach_keeps {α : Type} {P : State → Prop} {f : State → α → State} {l : List α} (hf : ∀ x ∈ l, ∀ s, P s → P (f s x))
    {s : State} (h : P s) : P (s.forEach l f) := by
  induction l generalizing s with
  | nil => exact h
  | cons x l ih =>
    obtain ⟨hx, hl⟩ := List.forall_mem_cons.mp hf
    exact ih hl (hx s h)

/-- A loop that passes one element once: what holds before its change, and after it, the other elements' changes keep. -/
theorem State.forEach_at {α : Type} {P Q : State → Prop} {f : State → α → State} {x : α} (hP : ∀ s y, y ≠ x → P s → P (f s y))
    (hx : ∀ s, P s → Q (f s x)) (hQ : ∀ s y, y ≠ x → Q s → Q (f s y)) {l : List α} (hl : l.Nodup) (hmem : x ∈ l) {s : State}
    (h : P s) : Q (s.forEach l f) := by
  induction l generalizing s with
  | nil => exact absurd hmem List.not_mem_nil
  | cons y l ih =>
    obtain ⟨hy, hl⟩ := List.nodup_cons.mp hl
    by_cases hyx : y = x
    · subst hyx
      exact State.forEach_keeps (fun z hz t => hQ t z (ne_of_mem_of_not_mem hz hy)) (hx s h)
    · exact ih hl (List.mem_of_ne_of_mem (Ne.symm hyx) hmem) (hP s y hyx h)

/-- What is in a map after a write was there before or is what was written. -/
theorem mem_of_mem_mapSet {α : Type} [DecidableEq α] {d : Nat → α} {m : Map α} {k : Nat} {v : α} {e : Nat × α}
    (h : e ∈ mapSet d m k v) : e = (k, v) ∨ e ∈ m := by
  unfold mapSet at h
  split at h
  · exact .inr (List.mem_filter.mp h).1
  · exact ((mem_mapInsert k v _ e).mp h).imp_right fun he => (List.mem_filter.mp he).1

/-- A key without an entry reads as its default. -/
theorem mapGet_of_not_mem {α : Type} {d : Nat → α} {m : Map α} {k : Nat} (h : ∀ e ∈ m, e.1 ≠ k) : mapGet d m k = d k := by
  induction m with
  | nil => rfl
  | cons e m ih =>
    obtain ⟨hk, hm⟩ := List.forall_mem_cons.mp h
    rw [mapGet, if_neg hk, ih hm]

/- The glue fabric at rest. -/

/-- No glue region runs, no lane is in raw or Ethernet mode, and no pad waits for an edge. -/
def State.GlueIdle (s : State) : Prop :=
  (∀ i, i < 8 → s.glueRuns i = false) ∧ s.rawRx = [] ∧ s.rawLanes = [] ∧ s.clockedPins = [] ∧
    ∀ q, q < 256 → (s.pad q).pending = false

/-- A register that decides neither which regions run, nor a lane's mode, nor a pin's function. -/
def BesideGlue (a : Nat) : Prop :=
  a ≠ aCfgStatus ∧ (∀ m, m < 24 → a ≠ aCfgRgn m) ∧ (∀ n, a ≠ aLnStat n) ∧ pinOfCfg a = none

theorem besideGlue_aIn (b : Nat) : BesideGlue (aIn b) := by
  have hoff : ¬ 0x100 ≤ aIn b % 0x200 := by unfold aIn aGpio; omega
  refine ⟨by unfold aIn aGpio aCfgStatus; omega, fun m hm => by unfold aIn aGpio aCfgRgn; omega,
    fun n => by unfold aIn aGpio aLnStat; omega, if_neg fun h => hoff h.2.2⟩

theorem besideGlue_aDramTxn (t : Nat) : BesideGlue (aDramTxn t) := by
  have hout : ¬ (aGpio 0 0 ≤ aDramTxn t ∧ aDramTxn t < aGpio 8 0) := by unfold aDramTxn tileReg tileBase aGpio; omega
  refine ⟨by unfold aDramTxn tileReg tileBase aCfgStatus; omega,
    fun m hm => by unfold aDramTxn tileReg tileBase aCfgRgn; omega,
    fun n => by unfold aDramTxn tileReg tileBase aLnStat; omega, if_neg fun h => hout ⟨h.1, h.2.1⟩⟩

theorem State.glueFenced_of_reg {s t : State} (n : Nat) (hstat : t.reg aCfgStatus = s.reg aCfgStatus)
    (hrgn : t.reg (aCfgRgn (16 + n)) = s.reg (aCfgRgn (16 + n))) : t.glueFenced n = s.glueFenced n := by
  simp only [State.glueFenced, State.devState, State.rgnState, State.fldOf, hstat, hrgn]

theorem State.rawLanes_setReg (s : State) (a : Nat) (v : W64) (h : ∀ n, a ≠ aLnStat n) : (s.setReg a v).rawLanes = s.rawLanes := by
  have hmode : ∀ n, (s.setReg a v).activeMode n = s.activeMode n := fun n => by
    have hstat : (s.setReg a v).fldOf (aLnStat n) 0 3 = s.fldOf (aLnStat n) 0 3 :=
      congrArg (fld · 0 3) (s.reg_setReg_other _ _ _ (h n).symm)
    have hlink : (s.setReg a v).link n = s.link n := rfl
    simp only [State.activeMode, hstat, hlink]
  simp only [State.rawLanes, hmode, State.setReg_links]

/-- The pins of a clocked function named one by one. -/
theorem State.clockedPins_eq_nil_iff (s : State) : s.clockedPins = [] ↔
    (s.glue.live = true → ∀ e ∈ s.regs, (pinOfCfg e.1).filter (fun _ => clockedFunc (fld e.2 0 3)) = none) := by
  unfold State.clockedPins
  split
  · rename_i hlive
    simp [hlive, List.filterMap_eq_nil_iff]
  · rename_i hlive
    simp [hlive]

theorem State.clockedPins_setReg (s : State) (a : Nat) (v : W64) (ha : pinOfCfg a = none) (h : s.clockedPins = []) :
    (s.setReg a v).clockedPins = [] := by
  rw [State.clockedPins_eq_nil_iff] at h ⊢
  intro hlive e he
  rcases mem_of_mem_mapSet he with rfl | he
  · rw [ha, Option.filter_none]
  · exact h hlive e he

theorem State.GlueIdle.setReg {s : State} (h : s.GlueIdle) {a : Nat} (ha : BesideGlue a) (v : W64) : (s.setReg a v).GlueIdle := by
  obtain ⟨hruns, hrx, hlanes, hpins, hpads⟩ := h
  obtain ⟨hstat, hrgn, hln, hcfg⟩ := ha
  refine ⟨fun i hi => ?_, hrx, (s.rawLanes_setReg a v hln).trans hlanes, s.clockedPins_setReg a v hcfg hpins, hpads⟩
  rw [← hruns i hi, State.glueRuns, State.glueRuns, State.glueFenced_of_reg i (s.reg_setReg_other _ _ _ hstat.symm)
    (s.reg_setReg_other _ _ _ (hrgn _ (by omega)).symm)]

theorem State.GlueIdle.setPad {s : State} (h : s.GlueIdle) (p : Nat) {x : Pin} (hx : x.pending = (s.pad p).pending) :
    (s.setPad p x).GlueIdle := by
  obtain ⟨hruns, hrx, hlanes, hpins, hpads⟩ := h
  refine ⟨hruns, hrx, hlanes, hpins, fun q hq => ?_⟩
  by_cases hqp : q = p
  · rw [hqp, State.pad_setPad_same, hx, ← hqp, hpads q hq]
  · rw [State.pad_setPad_other _ _ _ _ hqp, hpads q hq]

theorem State.GlueIdle.inputEdge {s : State} (h : s.GlueIdle) (p : Nat) : (s.inputEdge p).GlueIdle := by
  have hpad := h.setPad p (x := s.edgePin p) rfl
  rw [State.inputEdge_eq]
  cases s.edgeIn p with
  | none => exact hpad
  | some b => exact hpad.setReg (besideGlue_aIn _) _

/- The time base. -/

theorem State.GlueIdle.fullCycles {s : State} (h : s.GlueIdle) (n : Nat) : (s.fullCycles n).GlueIdle :=
  State.forEach_invariant State.GlueIdle _ (fun _ _ ht => ht.setReg (besideGlue_aDramTxn _) _) _ s h

theorem State.GlueIdle.advanceTo {s : State} (h : s.GlueIdle) (tb : Nat) : (s.advanceTo tb).GlueIdle := by
  unfold State.advanceTo
  split
  · exact State.GlueIdle.fullCycles (s := { s with tb, refcnt := _ }) h _
  · exact h

/-- A view of the state that neither the time base nor a count of a DRAM controller reads is the same at a later tick. -/
theorem State.advanceTo_view {β : Type} (g : State → β) (htb : ∀ (s : State) tb refcnt, g { s with tb, refcnt } = g s)
    (hcount : ∀ (s : State) t k, g (s.count (aDramTxn t) 16 32 k) = g s) (s : State) (tb : Nat) : g (s.advanceTo tb) = g s := by
  unfold State.advanceTo
  split
  · exact (State.forEach_view g _ (fun t _ => hcount t _ _) _ _).trans (htb s _ _)
  · rfl

theorem State.advanceTo_glue (s : State) (tb : Nat) : (s.advanceTo tb).glue = s.glue :=
  State.advanceTo_view State.glue (fun _ _ _ => rfl) (fun _ _ _ => State.count_glue _ _ _ _ _) s tb

theorem State.pad_advanceTo (s : State) (tb p : Nat) : (s.advanceTo tb).pad p = s.pad p := by
  rw [State.pad, State.advanceTo_glue, State.pad]

theorem aDramTxn_ne_aGpio (t b off : Nat) (hb : b < 8) (ho : off < 0x200) : aGpio b off ≠ aDramTxn t := by
  unfold aGpio aDramTxn tileReg tileBase
  omega

theorem State.reg_advanceTo_aGpio (s : State) (tb : Nat) {b off : Nat} (hb : b < 8) (ho : off < 0x200) :
    (s.advanceTo tb).reg (aGpio b off) = s.reg (aGpio b off) :=
  State.advanceTo_view (State.reg · (aGpio b off)) (fun _ _ _ => rfl)
    (fun t _ _ => t.reg_count_other _ _ _ _ _ (aDramTxn_ne_aGpio _ _ _ hb ho)) s tb

theorem State.pinIn_advanceTo (s : State) (tb : Nat) {p : Nat} (hp : p < 256) : (s.advanceTo tb).pinIn p = s.pinIn p :=
  congrArg (bit · (p % 32)) (s.reg_advanceTo_aGpio tb (by omega) (by decide))

/- The input path of one pin beside the others. -/

/-- A pin's path is the same in `t` as in `s`. -/
theorem State.Settles.of_samePath {s t : State} {p n k : Nat} {level : Bool} (h : s.Settles p level n k)
    (hcfg : t.reg (aPinCfg p) = s.reg (aPinCfg p)) (hstat : t.reg (aBankStat (p / 32)) = s.reg (aBankStat (p / 32)))
    (hpad : t.pad p = s.pad p) (hin : t.pinIn p = s.pinIn p) : t.Settles p level n k := by
  obtain ⟨hsteady, hrest⟩ := h
  refine ⟨hsteady.of_sameLevel ⟨hcfg, hstat, by rw [hpad], by rw [hpad], by rw [hpad]⟩, ?_⟩
  rw [hpad, hin]
  exact hrest

theorem State.Settles.inputEdge_other {s : State} {p n k : Nat} {level : Bool} (h : s.Settles p level n k) {q : Nat} (hq : q ≠ p) :
    (s.inputEdge q).Settles p level n k :=
  h.of_samePath (s.reg_inputEdge_other _ _ (aPinCfg_ne_aIn _ _)) (s.reg_inputEdge_other _ _ (aBankStat_ne_aIn _ _))
    (s.pad_inputEdge_other _ _ (Ne.symm hq)) (s.pinIn_inputEdge_other _ _ (Ne.symm hq))

theorem State.Settles.advanceTo {s : State} {p n k : Nat} {level : Bool} (h : s.Settles p level n k) (hp : p < 256) (tb : Nat) :
    (s.advanceTo tb).Settles p level n k :=
  h.of_samePath (s.reg_advanceTo_aGpio tb (by omega) (by omega)) (s.reg_advanceTo_aGpio tb (by omega) (by decide))
    (s.pad_advanceTo tb p) (s.pinIn_advanceTo tb hp)

/- An edge of the idle fabric (R239, R242, R267). -/

/-- The state with BR_TICK of every bridge low. -/
def State.unticked (s : State) : State := { s with glue := { s.glue with ticked := [] } }

theorem State.GlueIdle.unticked {s : State} (h : s.GlueIdle) : s.unticked.GlueIdle := h

theorem State.GlueIdle.draw {s : State} (h : s.GlueIdle) : s.draw.GlueIdle := h

theorem State.Settles.unticked {s : State} {p n k : Nat} {level : Bool} (h : s.Settles p level n k) :
    s.unticked.Settles p level n k := h

theorem State.Settles.draw {s : State} {p n k : Nat} {level : Bool} (h : s.Settles p level n k) : s.draw.Settles p level n k := h

/-- An edge of every pin's input path. -/
def State.inputEdges (s : State) : State := s.forEach (List.range 256) State.inputEdge

theorem State.GlueIdle.inputEdges {s : State} (h : s.GlueIdle) : s.inputEdges.GlueIdle :=
  State.forEach_invariant State.GlueIdle _ (fun _ p ht => ht.inputEdge p) _ s h

/-- The pin's own edge moves its path, the others' leave it. -/
theorem State.Settles.inputEdges_all {s : State} {p n k : Nat} {level : Bool} (hp : p < 256) (h : s.Settles p level n (k + 1)) :
    s.inputEdges.Settles p level n k :=
  State.forEach_at (P := fun t => t.Settles p level n (k + 1)) (Q := fun t => t.Settles p level n k)
    (fun _ _ hq ht => ht.inputEdge_other hq) (fun _ ht => ht.inputEdge) (fun _ _ hq ht => ht.inputEdge_other hq)
    List.nodup_range (List.mem_range.mpr hp) h

theorem State.rawTaken_of_none (s : State) (h : s.rawRx = []) : s.rawTaken = s := by
  unfold State.rawTaken
  rw [h]
  exact (congrArg (fun rx => { s with rawRx := rx }) h.symm).trans rfl

section
variable {s : State} (h : s.GlueIdle)
include h

theorem State.GlueIdle.no_running : (List.range 8).filter s.glueRuns = [] := by
  obtain ⟨hruns, _⟩ := h
  exact List.filter_eq_nil_iff.mpr fun i hi => by rw [hruns i (List.mem_range.mp hi)]; exact Bool.false_ne_true

theorem State.GlueIdle.padsEdge : s.padsEdge = s := by
  obtain ⟨_, _, _, hpins, hpads⟩ := h
  have hwait : (List.range 256).filter (fun p => (s.pad p).pending) = [] :=
    List.filter_eq_nil_iff.mpr fun q hq => by rw [hpads q (List.mem_range.mp hq)]; exact Bool.false_ne_true
  have hnone : (List.range 256).filter ([] : List Nat).contains = [] := List.filter_eq_nil_iff.mpr fun q _ => by simp
  simp only [State.padsEdge, hwait, hpins, List.append_nil, hnone, State.forEach_nil]

/-- With nothing running, an edge is one of every pin's input path. -/
theorem State.GlueIdle.glueEdge : s.glueEdge = s.unticked.inputEdges.draw := by
  have hrun : (List.range 8).any s.glueRuns = false := by
    rw [List.any_eq_false]
    exact List.filter_eq_nil_iff.mp h.no_running
  have hports : s.portsEdge s.unticked = s.unticked := by
    have hnone := h.no_running
    obtain ⟨hruns, hrx, hlanes, _⟩ := h
    simp only [State.portsEdge, hnone, hlanes, State.forEach_nil, hruns 7 (by decide), Bool.false_eq_true, if_false]
    exact s.unticked.rawTaken_of_none hrx
  have hs1 : (if (List.range 8).any s.glueRuns then s.fabricEdge else s.unticked) = s.unticked := by
    rw [hrun]
    exact if_neg Bool.false_ne_true
  calc s.glueEdge
      = (s.portsEdge (if (List.range 8).any s.glueRuns then s.fabricEdge else s.unticked)).inputEdges.padsEdge.draw := rfl
    _ = s.unticked.inputEdges.draw := by rw [hs1, hports, h.unticked.inputEdges.padsEdge]

theorem State.GlueIdle.keeps_idle : s.glueEdge.GlueIdle := by
  rw [h.glueEdge]
  exact h.unticked.inputEdges.draw

theorem State.GlueIdle.settles_glueEdge {p n k : Nat} {level : Bool} (hp : p < 256) (hs : s.Settles p level n (k + 1)) :
    s.glueEdge.Settles p level n k := by
  rw [h.glueEdge]
  exact (hs.unticked.inputEdges_all hp).draw

end

/- Time that passes (R267). -/

/-- A pin that an edge would not change shows its pad's level. -/
theorem State.pinIn_of_not_restless (s : State) (p : Nat) (h : s.pinRestless p = false) : s.pinIn p = s.padLevel p := by
  simp only [State.pinRestless, Bool.or_eq_false_iff, bne_eq_false_iff_eq] at h
  obtain ⟨⟨⟨_, hlevel⟩, h12⟩, h2⟩ := h
  exact (hlevel.trans (h12.trans h2)).symm

/-- Where an edge would change nothing, every pin shows its pad's level. -/
theorem State.pinIn_of_glueQuiet (s : State) {p : Nat} (hp : p < 256) (h : s.glueQuiet = true) : s.pinIn p = s.padLevel p := by
  simp only [State.glueQuiet, Bool.and_eq_true] at h
  obtain ⟨⟨_, hpads⟩, hins⟩ := h
  by_cases hlisted : ∃ e ∈ s.glue.pads, e.1 = p
  · obtain ⟨e, he, rfl⟩ := hlisted
    have hrest := List.all_eq_true.mp hpads e he
    rw [decide_eq_false (by omega), Bool.false_or, Bool.not_eq_true'] at hrest
    exact s.pinIn_of_not_restless _ hrest
  · have hpad : s.pad p = {} := mapGet_of_not_mem fun e he hk => hlisted ⟨e, he, hk⟩
    have hbank := List.all_eq_true.mp hins (p / 32) (List.mem_range.mpr (by omega))
    rcases Bool.or_eq_true_iff.mp hbank with hzero | hpins
    · have hin : s.pinIn p = false := by rw [State.pinIn, State.bitOf, beq_iff_eq.mp hzero]; simp [bit]
      have hlevel : s.padLevel p = false := by simp [State.padLevel, hpad]
      rw [hin, hlevel]
    · have hrest := List.all_eq_true.mp hpins (p % 32) (List.mem_range.mpr (by omega))
      rw [Nat.div_add_mod, Bool.not_eq_true'] at hrest
      exact s.pinIn_of_not_restless p hrest

/-- Enough edges bring a steady level to IN. -/
theorem State.GlueIdle.pinIn_edges {s : State} (h : s.GlueIdle) {p n k : Nat} {level : Bool} (hp : p < 256)
    (hs : s.Settles p level n k) : (State.edges k s).pinIn p = level := by
  induction k generalizing s with
  | zero => exact hs.pinIn
  | succ k ih =>
    rw [State.edges]
    split
    · rename_i hquiet
      obtain ⟨⟨_, hlevel, _⟩, _⟩ := hs
      exact (s.pinIn_of_glueQuiet hp hquiet).trans hlevel
    · have hidle := h.advanceTo ((s.tb / s.glueTicks + 1) * s.glueTicks)
      exact ih hidle.keeps_idle (hidle.settles_glueEdge hp (hs.advanceTo hp _))

theorem State.glueTicks_pos (s : State) : 0 < s.glueTicks := Nat.le_max_left 1 _

/-- A supplied pin shows its pad's steady level once two edges and the filter's have passed. -/
theorem State.GlueIdle.pinIn_passTo {s : State} (h : s.GlueIdle) {p n : Nat} {level : Bool} (hp : p < 256) (hs : s.Steady p level n) :
    (s.passTo (s.tb + (2 + n) * s.glueTicks)).pinIn p = level := by
  have hcount : (s.tb + (2 + n) * s.glueTicks) / s.glueTicks - s.tb / s.glueTicks = 2 + n := by
    rw [Nat.add_mul_div_right _ _ s.glueTicks_pos, Nat.add_sub_cancel_left]
  rw [State.passTo, State.pinIn_advanceTo _ _ hp, hcount]
  exact h.pinIn_edges hp hs.settles

end Sys2Proof.Machine

/-! Pad levels outside, the supply of a bank, and which registers decide that a pad is held (R267 to R271). -/

namespace Sys2Proof.Machine

theorem exec_pinInput (p : Nat) (level : Bool) (s : State) (hp : p < 256) :
    exec (.pinInput p level) s = .next (s.setPad p { s.pad p with level }) :=
  congrArg Host.Outcome.next ((if_pos hp).trans (if_pos hp))

theorem exec_glitchFilterExpiry (p : Nat) (s : State) (h : s.up) : exec (.glitchFilterExpiry p) s = .next (s.pinFilter p) :=
  act_up s (fun s => s.pinFilter p) h

/-- The registers of a bank whose supply code is `v`: without supply IN reads 0. -/
def State.supplied (s : State) (bank v : Nat) : State :=
  if v % 4 = 0 then (s.setFld (aBankStat bank) 0 2 v).setReg (aIn bank) 0 else s.setFld (aBankStat bank) 0 2 v

theorem exec_bankSupplyChange (bank v : Nat) (s : State) (hb : bank < 8) :
    exec (.bankSupplyChange bank v) s = .next (s.supplied bank v).drivePads :=
  congrArg Host.Outcome.next ((if_pos hb).trans (if_pos hb))

/- What holds a pad (R268 to R270). -/

/-- A register that decides neither a pin's function nor whether a region or a bridge is fenced. -/
def BesideHold (p a : Nat) : Prop :=
  a ≠ aPinCfg p ∧ a ≠ aCfgStatus ∧ (∀ m, m < 24 → a ≠ aCfgRgn m) ∧ ∀ m, m < 16 → a ≠ aNocFence m ∧ a ≠ aDbgHalt m

theorem besideHold_aGpio (p b : Nat) {off : Nat} (hb : b < 8) (ho : off < 0x100) : BesideHold p (aGpio b off) := by
  refine ⟨?_, ?_, fun m hm => ?_, fun m hm => ⟨?_, ?_⟩⟩
  · unfold aPinCfg aGpio; omega
  · unfold aGpio aCfgStatus; omega
  · unfold aGpio aCfgRgn; omega
  · unfold aGpio aNocFence; omega
  · unfold aGpio aDbgHalt; omega

theorem State.emulOut_lt {s : State} {p m : Nat} (h : s.emulOut p = some m) : m < 16 := by
  unfold State.emulOut at h
  split at h
  · exact Option.some.inj h ▸ BitVec.isLt _
  · exact absurd h (by simp)

theorem State.bridgeInert_setReg (s : State) {a m : Nat} (v : W64) (hrgn : a ≠ aCfgRgn m) (hfence : a ≠ aNocFence m)
    (hhalt : a ≠ aDbgHalt m) : (s.setReg a v).bridgeInert m = s.bridgeInert m := by
  have hr : (s.setReg a v).rgn m = s.rgn m := rfl
  have hstate : (s.setReg a v).rgnState m = s.rgnState m := congrArg (fld · 0 3) (s.reg_setReg_other _ _ v hrgn.symm)
  have hfenced : (s.setReg a v).fenced m = s.fenced m :=
    congrArg (fun r => bit r 0 || !(s.rgn m).released) (s.reg_setReg_other _ _ v hfence.symm)
  have hhalted : (s.setReg a v).halted m = s.halted m := congrArg (bit · 4) (s.reg_setReg_other _ _ v hhalt.symm)
  simp only [State.bridgeInert, hr, hstate, hfenced, hhalted]

theorem State.padHolds_setReg (s : State) {p a : Nat} (v : W64) (hp : p < 256) (h : BesideHold p a) :
    (s.setReg a v).padHolds p = s.padHolds p := by
  obtain ⟨hcfg, hstat, hrgn, hbridge⟩ := h
  have hreg : (s.setReg a v).reg (aPinCfg p) = s.reg (aPinCfg p) := s.reg_setReg_other _ _ v hcfg.symm
  have hfunc : (s.setReg a v).pinFunc p = s.pinFunc p := congrArg (fld · 0 3) hreg
  have hout : (s.setReg a v).bitOf (aPinCfg p) 36 = s.bitOf (aPinCfg p) 36 := congrArg (bit · 36) hreg
  have hbr : (s.setReg a v).fldOf (aPinCfg p) 32 4 = s.fldOf (aPinCfg p) 32 4 := congrArg (fld · 32 4) hreg
  have hemul : (s.setReg a v).emulOut p = s.emulOut p := by simp only [State.emulOut, hfunc, hout, hbr]
  have hfenced : (s.setReg a v).glueFenced (p / 32) = s.glueFenced (p / 32) :=
    State.glueFenced_of_reg _ (s.reg_setReg_other _ _ v hstat.symm) (s.reg_setReg_other _ _ v (hrgn _ (by omega)).symm)
  have hfrozen : (s.setReg a v).pinFrozen p = s.pinFrozen p := by
    simp only [State.pinFrozen, hfunc, hemul, hfenced, State.setReg_glue]
    cases he : s.emulOut p with
    | none => rfl
    | some m =>
      have hm := State.emulOut_lt he
      obtain ⟨hf, hh⟩ := hbridge m hm
      simp only [s.bridgeInert_setReg v (hrgn m (by omega)) hf hh]
  have hpad : (s.setReg a v).pad p = s.pad p := rfl
  simp only [State.padHolds, hfrozen, hpad, State.setReg_glue]

theorem State.padHolds_supplied (s : State) {p : Nat} (v : Nat) (hp : p < 256) :
    (s.supplied (p / 32) v).padHolds p = s.padHolds p := by
  have hstat : ∀ x, (s.setReg (aBankStat (p / 32)) x).padHolds p = s.padHolds p := fun x =>
    s.padHolds_setReg x hp (besideHold_aGpio p _ (by omega) (by decide))
  unfold State.supplied
  split
  · exact (State.padHolds_setReg _ 0 hp (besideHold_aGpio p _ (by omega) (by decide))).trans (hstat _)
  · exact hstat _

/-- The other pads do not decide whether a pad is held. -/
theorem State.PadsOnly.padHolds {s t : State} (h : s.PadsOnly t) {p : Nat} (hpad : t.pad p = s.pad p) :
    t.padHolds p = s.padHolds p := by
  unfold State.padHolds
  rw [hpad]
  obtain ⟨_, _, rfl⟩ := h
  rfl

/- A bank without supply (R271). -/

theorem State.pad_followPad_other (s : State) (p q : Nat) (h : q ≠ p) : (s.followPad p).pad q = s.pad q := by
  unfold State.followPad
  split
  · rfl
  · exact s.pad_drivePad_other p q h

theorem State.pad_draw (s : State) (p : Nat) : s.draw.pad p = s.pad p := rfl

/-- Driving the pads leaves none of an unsupplied bank driving that is not held. -/
theorem State.oe_drivePads_of_no_supply (s : State) {p : Nat} (hp : p < 256) (hfree : s.padHolds p = false)
    (hoff : s.fldOf (aBankStat (p / 32)) 0 2 = 0) : (s.drivePads.pad p).oe = false := by
  have hloop := State.forEach_at (P := fun t => s.PadsOnly t ∧ t.pad p = s.pad p)
    (Q := fun t => (t.pad p).oe = false) (f := State.followPad) (x := p) (l := List.range 256) (s := s)
    (fun t q hq ht => ?other) (fun t ht => ?own) (fun t q hq ht => ?after) List.nodup_range (List.mem_range.mpr hp)
    ⟨State.PadsOnly.refl s, rfl⟩
  case other =>
    obtain ⟨honly, hpad⟩ := ht
    exact ⟨honly.trans (t.padsOnly_followPad q), (t.pad_followPad_other q p (Ne.symm hq)).trans hpad⟩
  case own =>
    obtain ⟨honly, hpad⟩ := ht
    have hfree' : ¬ t.padHolds p = true := by rw [honly.padHolds hpad, hfree]; exact Bool.false_ne_true
    have hoff' : t.fldOf (aBankStat (p / 32)) 0 2 = 0 := (congrArg (fld · 0 2) (honly.reg _)).trans hoff
    rw [State.followPad, if_neg hfree']
    exact t.oe_drivePad_of_no_supply p hoff'
  case after => rwa [t.pad_followPad_other q p (Ne.symm hq)]
  rw [State.drivePads_eq, State.pad_draw]
  exact hloop

theorem State.fldOf_supplied (s : State) (bank : Nat) {v : Nat} (hv : v < 4) : (s.supplied bank v).fldOf (aBankStat bank) 0 2 = v := by
  have hset : (s.setFld (aBankStat bank) 0 2 v).fldOf (aBankStat bank) 0 2 = v := State.fldOf_setFld_same _ _ _ _ _ (by decide) hv
  unfold State.supplied
  split
  · rw [State.fldOf, State.reg_setReg_other _ _ _ _ (aBankStat_ne_aIn _ _)]
    exact hset
  · exact hset

theorem State.supplied_mem (s : State) (bank v : Nat) : (s.supplied bank v).mem = s.mem := by
  unfold State.supplied
  split <;> rfl

/-- A change of a bank's supply is shown; without supply IN reads 0, and no pad that is not held drives. -/
theorem bankSupplyChange_follows (s : State) {p v : Nat} (hp : p < 256) (hv : v < 4) :
    ∃ t, exec (.bankSupplyChange (p / 32) v) s = .next t ∧ t.fldOf (aBankStat (p / 32)) 0 2 = v ∧
      (v = 0 → t.reg (aIn (p / 32)) = 0 ∧ (s.padHolds p = false → (t.pad p).oe = false)) ∧ t.mem = s.mem := by
  have hcode := s.fldOf_supplied (p / 32) hv
  refine ⟨_, exec_bankSupplyChange _ v s (by omega), ?_, fun h0 => ⟨?_, fun hfree => ?_⟩, ?_⟩
  · rw [State.drivePads_fldOf, hcode]
  · rw [State.drivePads_reg, State.supplied, if_pos (by omega), State.reg_setReg_same]
  · exact State.oe_drivePads_of_no_supply _ hp ((s.padHolds_supplied v hp).trans hfree) (hcode.trans h0)
  · rw [State.drivePads_mem, s.supplied_mem]

/-- The glitch filter of a pin that differs from its pad expires: its time has passed, and IN shows the pad's level. -/
theorem glitchFilterExpiry_follows (s : State) {p : Nat} (hp : p < 256) (h : s.up) (hne : s.padLevel p ≠ s.pinIn p) :
    ∃ t, exec (.glitchFilterExpiry p) s = .next t ∧ s.tb + (2 + s.fldOf (aPinCfg p) 16 8) * s.glueTicks ≤ t.tb ∧
      (s.bankOn p = true → (∀ i, i < 8 → s.glueRuns i = false) → s.rawRx = [] → s.rawLanes = [] → s.clockedPins = [] →
        (∀ q, q < 256 → (s.pad q).pending = false) → t.pinIn p = s.padLevel p) := by
  refine ⟨_, (exec_glitchFilterExpiry p s h).trans (congrArg _ (if_pos ⟨hp, hne⟩)), s.le_tb_passTo _,
    fun hon hruns hrx hlanes hpins hpads => ?_⟩
  have hidle : s.GlueIdle := ⟨hruns, hrx, hlanes, hpins, hpads⟩
  exact hidle.pinIn_passTo hp ⟨hon, rfl, rfl⟩

/-- Settles O38: the input path edge by edge, for a single pin and with the edges of all pins, and the pads of a bank without
supply. -/
theorem pinsFollow : Obligations.PinsFollow := by
  unfold Obligations.PinsFollow
  intro s p level hp n
  refine ⟨?input, fun hon h1 h2 hc => inputPath_takes s p hon h1 h2 hc, fun h heq => ?agrees,
    fun h hne => glitchFilterExpiry_follows s hp h hne, fun v hv => bankSupplyChange_follows s hp hv⟩
  case input =>
    refine ⟨_, exec_pinInput p level s hp, ?_, ?_, ?_, fun q hq => State.pad_setPad_other _ _ _ _ hq, rfl, rfl⟩ <;>
      rw [State.pad_setPad_same]
  case agrees => exact (exec_glitchFilterExpiry p s h).trans (congrArg _ (if_neg fun hd => hd.2 heq))

end Sys2Proof.Machine
